-- ==== Sys2Proof/Word.lean ====
section
/-! DEFINITION. Word.lean: the 64-bit word of every register (R3) and the byte of memory. -/

namespace Sys2Proof

/-- R3: every register is 64 bits wide. -/
abbrev Word := BitVec 64

/-- The smallest addressable unit of memory. -/
abbrev Byte := BitVec 8

end Sys2Proof
end

