-- ==== Sys2Proof/Machine/RegTable.lean ====
section
/-! DEFINITION. Machine/RegTable.lean: the register map of chapter 19 (R479-R481, Tables 19.2 and 19.3), every
register's reset word and access masks (Table 0.2), the addresses of the registers by name and
their fields by name. -/

namespace Sys2Proof.Machine

/-- One register of Table 19.3: on which dies it lies, its block (Table 19.2), the local instances
and their stride, its offset, its array entries and their step, its reset word and the masks of its
fields by access code (Table 0.2; a bit in no mask is RO or RSV). -/
structure RegDef where
  name : String
  hub : Bool
  dies : Bool
  block : Nat
  insts : Nat
  stride : Nat
  off : Nat
  entries : Nat
  step : Nat
  reset : Nat
  rw : Nat
  w1c : Nat
  w1s : Nat
  rwl : Nat
  wo : Nat
  deriving DecidableEq, Repr

/-- Registers of block 0x01. -/
def regTable01 : List RegDef :=
  [ ⟨"HUB_ID", true, false, 0x1, 1, 0x0, 0x0, 1, 0x8, 0x1640000000000000, 0x0, 0x0, 0x0, 0x0, 0x0⟩,
    ⟨"HUB_CYCLE", true, false, 0x1, 1, 0x0, 0x8, 1, 0x8, 0x0, 0x0, 0x0, 0x0, 0x0, 0x0⟩,
    ⟨"HUB_BOOT_STAT", true, false, 0x1, 1, 0x0, 0x10, 1, 0x8, 0x100000000000000, 0x0, 0x0, 0x0, 0x0, 0x0⟩,
    ⟨"HUB_SVC_STAT", true, false, 0x1, 1, 0x0, 0x18, 1, 0x8, 0x0, 0x0, 0x0, 0x0, 0x0, 0x0⟩ ]

/-- Registers of block 0x02. -/
def regTable02 : List RegDef :=
  [ ⟨"MBX_CMD_DATA", true, false, 0x2, 2, 0x100, 0x0, 1, 0x8, 0x0, 0x0, 0x0, 0x0, 0x0, 0xFFFFFFFFFFFFFFFF⟩,
    ⟨"MBX_CMD_STAT", true, false, 0x2, 2, 0x100, 0x8, 1, 0x8, 0x0, 0x0, 0x0, 0x0, 0x0, 0x0⟩,
    ⟨"MBX_CMD_CTRL", true, false, 0x2, 2, 0x100, 0x10, 1, 0x8, 0x100, 0x100, 0x0, 0x0, 0x0, 0x1⟩,
    ⟨"MBX_RSP_HEAD", true, false, 0x2, 2, 0x100, 0x18, 1, 0x8, 0x0, 0x0, 0x0, 0x0, 0x0, 0x0⟩,
    ⟨"MBX_RSP_DATA", true, false, 0x2, 2, 0x100, 0x20, 1, 0x8, 0x0, 0x0, 0x0, 0x0, 0x0, 0x0⟩,
    ⟨"MBX_RSP_POS", true, false, 0x2, 2, 0x100, 0x28, 1, 0x8, 0x0, 0x0, 0x0, 0x0, 0x0, 0x0⟩,
    ⟨"MBX_RSP_CTRL", true, false, 0x2, 2, 0x100, 0x30, 1, 0x8, 0x0, 0x0, 0x0, 0x0, 0x0, 0x1FFF⟩,
    ⟨"MBX_EVT_HEAD", true, false, 0x2, 2, 0x100, 0x38, 1, 0x8, 0x0, 0x0, 0x4000000000000000, 0x0, 0x0, 0x0⟩,
    ⟨"MBX_EVT_DATA", true, false, 0x2, 2, 0x100, 0x40, 1, 0x8, 0x0, 0x0, 0x0, 0x0, 0x0, 0x0⟩ ]

/-- Registers of block 0x03. -/
def regTable03 : List RegDef :=
  [ ⟨"LNK_CTRL", true, false, 0x3, 4, 0x100, 0x0, 1, 0x8, 0x100001, 0xFF0001, 0x0, 0x0, 0x0, 0x2⟩,
    ⟨"LNK_STAT", true, false, 0x3, 4, 0x100, 0x8, 1, 0x8, 0x0, 0x0, 0x0, 0x0, 0x0, 0x0⟩,
    ⟨"LNK_ERR", true, false, 0x3, 4, 0x100, 0x10, 1, 0x8, 0x0, 0x0, 0x0, 0x0, 0x0, 0x0⟩,
    ⟨"LNK_ADDR", true, false, 0x3, 1, 0x0, 0x400, 2, 0x8, 0x3F, 0x0, 0x0, 0x0, 0x0, 0x0⟩,
    ⟨"LNK_SERIAL", true, false, 0x3, 1, 0x0, 0x410, 2, 0x8, 0x0, 0x0, 0x0, 0x0, 0x0, 0x0⟩ ]

/-- Registers of block 0x04. -/
def regTable04 : List RegDef :=
  [ ⟨"SEC_LC", true, false, 0x4, 1, 0x0, 0x0, 1, 0x8, 0x0, 0x0, 0x0, 0x0, 0x0, 0x0⟩,
    ⟨"SEC_TAMPER_CTRL", true, false, 0x4, 1, 0x0, 0x8, 1, 0x8, 0x1400, 0xFF01, 0x0, 0x0, 0x0, 0x0⟩,
    ⟨"SEC_TAMPER_STAT", true, false, 0x4, 1, 0x0, 0x10, 1, 0x8, 0x0, 0x0, 0x0, 0x0, 0x0, 0x0⟩ ]

/-- Registers of block 0x05. -/
def regTable05 : List RegDef :=
  [ ⟨"DBG_STAT", true, false, 0x5, 1, 0x0, 0x0, 1, 0x8, 0x0, 0x0, 0x0, 0x0, 0x0, 0x0⟩,
    ⟨"DBG_SESSION", true, false, 0x5, 1, 0x0, 0x20, 4, 0x8, 0x0, 0x0, 0x0, 0x0, 0x0, 0x0⟩ ]

/-- Registers of block 0x06. -/
def regTable06 : List RegDef :=
  [ ⟨"PWR_STAT", true, false, 0x6, 1, 0x0, 0x0, 1, 0x8, 0x0, 0x0, 0x0, 0x0, 0x0, 0x0⟩,
    ⟨"PWR_DIE", false, true, 0x6, 1, 0x0, 0x0, 1, 0x8, 0x8080000000, 0x0, 0x0, 0x0, 0x0, 0x0⟩ ]

/-- Registers of block 0x07. -/
def regTable07 : List RegDef :=
  [ ⟨"CLK_CLUSTER", false, true, 0x7, 1, 0x0, 0x0, 12, 0x8, 0x8000064000000640, 0x0, 0x0, 0x0, 0x0, 0x0⟩ ]

/-- Registers of block 0x08. -/
def regTable08 : List RegDef :=
  [ ⟨"DMA_CTRL", true, false, 0x8, 8, 0x40, 0x0, 1, 0x8, 0x0, 0x3900000000000000, 0x0, 0x0, 0x0, 0x1⟩,
    ⟨"DMA_STAT", true, false, 0x8, 8, 0x40, 0x8, 1, 0x8, 0x0, 0x0, 0x4000000000000000, 0x0, 0x0, 0x0⟩,
    ⟨"DMA_MADDR", true, false, 0x8, 8, 0x40, 0x10, 1, 0x8, 0x0, 0xFFFFFFFFFFF8, 0x0, 0x0, 0x0, 0x0⟩,
    ⟨"DMA_SADDR", true, false, 0x8, 8, 0x40, 0x18, 1, 0x8, 0x0, 0xFFFFF8, 0x0, 0x0, 0x0, 0x0⟩,
    ⟨"DMA_COUNT", true, false, 0x8, 8, 0x40, 0x20, 1, 0x8, 0x0, 0xFFFFFFFF, 0x0, 0x0, 0x0, 0x0⟩ ]

/-- Registers of block 0x09. -/
def regTable09 : List RegDef :=
  [ ⟨"EVR_PEND", true, false, 0x9, 1, 0x0, 0x0, 5, 0x8, 0x0, 0x0, 0xFFFFFFFFFFFFFFFF, 0x0, 0x0, 0x0⟩,
    ⟨"EVR_MERGED", true, false, 0x9, 1, 0x0, 0x40, 5, 0x8, 0x0, 0x0, 0xFFFFFFFFFFFFFFFF, 0x0, 0x0, 0x0⟩,
    ⟨"EVR_SWSET", true, false, 0x9, 1, 0x0, 0x80, 1, 0x8, 0x0, 0x0, 0x0, 0x0, 0x0, 0xFFFF⟩ ]

/-- Registers of block 0x10. -/
def regTable10 : List RegDef :=
  [ ⟨"FOX_CTRL", false, true, 0x10, 12, 0x100, 0x0, 1, 0x8, 0x8000000000000000, 0x8000FFFFFFFFFFFC, 0x0, 0x0, 0x0, 0x0⟩,
    ⟨"FOX_STAT", false, true, 0x10, 12, 0x100, 0x40, 3, 0x20, 0x1000000000000000, 0x0, 0x0, 0x0, 0x0, 0x0⟩,
    ⟨"FOX_PC", false, true, 0x10, 12, 0x100, 0x48, 3, 0x20, 0x0, 0x0, 0x0, 0x0, 0x0, 0x0⟩,
    ⟨"FOX_RETIRED", false, true, 0x10, 12, 0x100, 0x50, 3, 0x20, 0x0, 0x0, 0x0, 0x0, 0x0, 0x0⟩,
    ⟨"FOX_TRAP", false, true, 0x10, 12, 0x100, 0x58, 3, 0x20, 0x0, 0x0, 0x0, 0x0, 0x0, 0x0⟩ ]

/-- Registers of block 0x11. -/
def regTable11 : List RegDef :=
  [ ⟨"OWL_CTRL", false, true, 0x11, 12, 0x100, 0x0, 1, 0x8, 0x0, 0x0, 0x0, 0x0, 0x3, 0x0⟩,
    ⟨"OWL_STAT", false, true, 0x11, 12, 0x100, 0x8, 1, 0x8, 0x0, 0x0, 0x0, 0x0, 0x0, 0x0⟩,
    ⟨"OWL_CORE", false, true, 0x11, 12, 0x100, 0x10, 3, 0x8, 0xC000000000000000, 0x0, 0x0, 0x0, 0x0, 0x0⟩,
    ⟨"OWL_INJ", false, true, 0x11, 12, 0x100, 0x30, 1, 0x8, 0x0, 0xF0F0, 0x6000000000000000, 0x8000000000000000, 0x0, 0x0⟩,
    ⟨"OWL_INJ_PAT", false, true, 0x11, 12, 0x100, 0x38, 1, 0x8, 0x0, 0xFFFFFFFFFFFFFFFF, 0x0, 0x0, 0x0, 0x0⟩ ]

/-- Registers of block 0x12. -/
def regTable12 : List RegDef :=
  [ ⟨"TIL_CHAIN_HDR", false, true, 0x12, 12, 0x2000, 0x0, 64, 0x8, 0x0, 0xFFF7EFF000000000, 0x0, 0x0, 0x0, 0x0⟩,
    ⟨"TIL_CHAIN_NODE", false, true, 0x12, 12, 0x2000, 0x200, 512, 0x8, 0x0, 0xFFFFFFF800000000, 0x0, 0x0, 0x0, 0x0⟩,
    ⟨"TIL_CHAIN_K", false, true, 0x12, 12, 0x2000, 0x1200, 256, 0x8, 0x0, 0xFFFFFFFFFFFFFFFF, 0x0, 0x0, 0x0, 0x0⟩,
    ⟨"TIL_TILE_STAT", false, true, 0x12, 12, 0x2000, 0x1A00, 16, 0x8, 0x8000FF0000000000, 0x0, 0x0, 0x0, 0x0, 0x0⟩,
    ⟨"TIL_TILE_CNT", false, true, 0x12, 12, 0x2000, 0x1A80, 16, 0x8, 0x0, 0x0, 0x0, 0x0, 0x0, 0x0⟩ ]

/-- Registers of block 0x13. -/
def regTable13 : List RegDef :=
  [ ⟨"XBR_STAT", false, true, 0x13, 192, 0x8, 0x0, 1, 0x8, 0x0, 0x0, 0x0, 0x0, 0x0, 0x0⟩ ]

/-- Registers of block 0x14. -/
def regTable14 : List RegDef :=
  [ ⟨"AGU_CTRL", false, true, 0x14, 12, 0x400, 0x0, 1, 0x8, 0x0, 0xB, 0x0, 0x0, 0x0, 0x0⟩,
    ⟨"AGU_ISSUE_STAT", false, true, 0x14, 12, 0x400, 0x8, 1, 0x8, 0x0, 0x0, 0x100, 0x0, 0x0, 0x0⟩,
    ⟨"AGU_SFLT", false, true, 0x14, 12, 0x400, 0x10, 1, 0x8, 0x0, 0x0, 0x0, 0x0, 0x0, 0x0⟩,
    ⟨"AGU_SFLT_ADDR", false, true, 0x14, 12, 0x400, 0x18, 1, 0x8, 0x0, 0x0, 0x8000000000000000, 0x0, 0x0, 0x0⟩,
    ⟨"AGU_ATRAP", false, true, 0x14, 12, 0x400, 0x20, 1, 0x8, 0x0, 0x0, 0x0, 0x0, 0x0, 0x0⟩,
    ⟨"AGU_ATRAP_FIRST", false, true, 0x14, 12, 0x400, 0x28, 1, 0x8, 0x0, 0x0, 0x0, 0x0, 0x0, 0x0⟩,
    ⟨"AGU_ATRAP_LAST", false, true, 0x14, 12, 0x400, 0x30, 1, 0x8, 0x0, 0x0, 0x0, 0x0, 0x0, 0x0⟩,
    ⟨"AGU_RNG_LO", false, true, 0x14, 12, 0x400, 0x100, 32, 0x8, 0x0, 0xC000FFFFFFFFFFC0, 0x0, 0x0, 0x0, 0x0⟩,
    ⟨"AGU_RNG_HI", false, true, 0x14, 12, 0x400, 0x200, 32, 0x8, 0x0, 0xFFFFFFFFFFC0, 0x0, 0x0, 0x0, 0x0⟩ ]

/-- Registers of block 0x15. -/
def regTable15 : List RegDef :=
  [ ⟨"CMT_STAT", false, true, 0x15, 192, 0x10, 0x0, 1, 0x8, 0x0, 0x0, 0x0, 0x0, 0x0, 0x0⟩,
    ⟨"CMT_SIG", false, true, 0x15, 192, 0x10, 0x8, 1, 0x8, 0x0, 0x0, 0x0, 0x0, 0x0, 0x0⟩ ]

/-- Registers of block 0x16. -/
def regTable16 : List RegDef :=
  [ ⟨"SCR_RAW_CTRL", false, true, 0x16, 1, 0x0, 0x0, 1, 0x8, 0x0, 0x3FF033F3F02, 0x0, 0x0, 0x8000000000000000, 0x1⟩,
    ⟨"SCR_RAW_DATA", false, true, 0x16, 1, 0x0, 0x8, 1, 0x8, 0x0, 0xFFFFFFFFFFFFFFFF, 0x0, 0x0, 0x0, 0x0⟩,
    ⟨"SCR_RAW_STAT", false, true, 0x16, 1, 0x0, 0x10, 1, 0x8, 0x0, 0xFF, 0xE000000000000000, 0x0, 0x0, 0x0⟩,
    ⟨"SCR_SEC_STAT", false, true, 0x16, 1, 0x0, 0x18, 1, 0x8, 0x0, 0x0, 0x0, 0x0, 0x0, 0x0⟩ ]

/-- Registers of block 0x17. -/
def regTable17 : List RegDef :=
  [ ⟨"FAB_CTRL", true, true, 0x17, 1, 0x0, 0x0, 1, 0x8, 0x80001, 0x0, 0x0, 0x0, 0xFF0001, 0x0⟩,
    ⟨"FAB_DEFERR", true, true, 0x17, 1, 0x0, 0x8, 1, 0x8, 0x0, 0x0, 0x8000000000000000, 0x0, 0x0, 0x0⟩,
    ⟨"FAB_LINK_STAT", false, true, 0x17, 1, 0x0, 0x10, 3, 0x8, 0x2020, 0x0, 0x0, 0x0, 0x0, 0x0⟩,
    ⟨"FAB_LINK_STAT", true, false, 0x17, 1, 0x0, 0x10, 4, 0x8, 0x2020, 0x0, 0x0, 0x0, 0x0, 0x0⟩ ]

/-- Registers of block 0x18. -/
def regTable18 : List RegDef :=
  [ ⟨"RES_SUB_CTRL", false, true, 0x18, 1, 0x0, 0x0, 1, 0x8, 0x0, 0xFCFE, 0x0, 0x0, 0x0, 0x1⟩,
    ⟨"RES_SUB_STAT", false, true, 0x18, 1, 0x0, 0x8, 1, 0x8, 0x0, 0x0, 0x6000000000000000, 0x0, 0x0, 0x0⟩,
    ⟨"RES_RET_IDX", false, true, 0x18, 1, 0x0, 0x10, 1, 0x8, 0x0, 0xFFF, 0x0, 0x0, 0x0, 0x0⟩,
    ⟨"RES_RET_DATA", false, true, 0x18, 1, 0x0, 0x18, 1, 0x8, 0x0, 0x80000000000FFFFF, 0x0, 0x0, 0x0, 0x0⟩,
    ⟨"RES_RET_COUNT", false, true, 0x18, 1, 0x0, 0x20, 1, 0x8, 0x0, 0x0, 0x0, 0x0, 0x0, 0x0⟩,
    ⟨"RES_PCH", false, true, 0x18, 1, 0x0, 0x100, 64, 0x8, 0x0, 0x0, 0x0, 0x0, 0x0, 0x0⟩ ]

/-- Registers of block 0x19. -/
def regTable19 : List RegDef :=
  [ ⟨"MEM_STAT", false, true, 0x19, 2, 0x200, 0x0, 1, 0x8, 0x280800000, 0x0, 0x0, 0x0, 0x0, 0x0⟩,
    ⟨"MEM_PCH_STAT", false, true, 0x19, 2, 0x200, 0x100, 32, 0x8, 0x0, 0x0, 0x0, 0x0, 0x0, 0x0⟩ ]

/-- Registers of block 0x1A. -/
def regTable1A : List RegDef :=
  [ ⟨"ECC_BP_CTRL", false, true, 0x1A, 1, 0x0, 0x0, 1, 0x8, 0x0, 0xC0000000000FFFFF, 0x0, 0x0, 0x0, 0x0⟩,
    ⟨"ECC_BP_CHECK", false, true, 0x1A, 1, 0x0, 0x8, 1, 0x8, 0x0, 0xFF, 0x0, 0x0, 0x0, 0x0⟩,
    ⟨"ECC_BP_SYN", false, true, 0x1A, 1, 0x0, 0x10, 1, 0x8, 0x0, 0x0, 0x0, 0x0, 0x0, 0x0⟩,
    ⟨"ECC_COUNT", false, true, 0x1A, 1, 0x0, 0x18, 1, 0x8, 0x0, 0x0, 0x0, 0x0, 0x0, 0x0⟩ ]

/-- Registers of block 0x1B. -/
def regTable1B : List RegDef :=
  [ ⟨"HOG_CTRL", false, true, 0x1B, 1, 0x0, 0x0, 1, 0x8, 0x5A000000404, 0xC000000000000000, 0x0, 0x0, 0xFFFF00000F07, 0x0⟩,
    ⟨"HOG_STAT", false, true, 0x1B, 1, 0x0, 0x8, 1, 0x8, 0x0, 0x0, 0x4000000000000000, 0x0, 0x0, 0x0⟩,
    ⟨"HOG_LAP", false, true, 0x1B, 1, 0x0, 0x10, 1, 0x8, 0x0, 0x0, 0x0, 0x0, 0x0, 0x0⟩,
    ⟨"HOG_RCT_IDX", false, true, 0x1B, 1, 0x0, 0x18, 1, 0x8, 0x0, 0x3F, 0x0, 0x0, 0x0, 0x0⟩,
    ⟨"HOG_RCT_DATA", false, true, 0x1B, 1, 0x0, 0x20, 1, 0x8, 0x0, 0x0, 0x0, 0x0, 0x0, 0x0⟩,
    ⟨"HOG_RCT_STAT", false, true, 0x1B, 1, 0x0, 0x28, 1, 0x8, 0x0, 0x0, 0x0, 0x0, 0x0, 0x0⟩ ]

/-- Registers of block 0x1C. -/
def regTable1C : List RegDef :=
  [ ⟨"FLT_STAT", false, true, 0x1C, 19, 0x40, 0x0, 1, 0x8, 0x0, 0x0, 0x8000000000000000, 0x0, 0x0, 0x0⟩,
    ⟨"FLT_INFO", false, true, 0x1C, 19, 0x40, 0x8, 1, 0x8, 0x0, 0x0, 0x0, 0x0, 0x0, 0x0⟩,
    ⟨"FLT_TIME", false, true, 0x1C, 19, 0x40, 0x10, 1, 0x8, 0x0, 0x0, 0x0, 0x0, 0x0, 0x0⟩,
    ⟨"FLT_COUNT", false, true, 0x1C, 19, 0x40, 0x18, 1, 0x8, 0x0, 0x0, 0x0, 0x0, 0x0, 0x0⟩,
    ⟨"FLT_FENCE", false, true, 0x1C, 19, 0x40, 0x20, 1, 0x8, 0x0, 0x0, 0x0, 0x0, 0x0, 0x0⟩,
    ⟨"FLT_STAT", true, false, 0x1C, 15, 0x40, 0x0, 1, 0x8, 0x0, 0x0, 0x8000000000000000, 0x0, 0x0, 0x0⟩,
    ⟨"FLT_INFO", true, false, 0x1C, 15, 0x40, 0x8, 1, 0x8, 0x0, 0x0, 0x0, 0x0, 0x0, 0x0⟩,
    ⟨"FLT_TIME", true, false, 0x1C, 15, 0x40, 0x10, 1, 0x8, 0x0, 0x0, 0x0, 0x0, 0x0, 0x0⟩,
    ⟨"FLT_COUNT", true, false, 0x1C, 15, 0x40, 0x18, 1, 0x8, 0x0, 0x0, 0x0, 0x0, 0x0, 0x0⟩,
    ⟨"FLT_FENCE", true, false, 0x1C, 15, 0x40, 0x20, 1, 0x8, 0x0, 0x0, 0x0, 0x0, 0x0, 0x0⟩ ]

/-- Registers of block 0x1D. -/
def regTable1D : List RegDef :=
  [ ⟨"PAR_CTRL", true, false, 0x1D, 1, 0x0, 0x0, 4, 0x8, 0x0, 0x1007, 0x0, 0x0, 0x101F01FF3F0F03F0, 0x0⟩,
    ⟨"PAR_STATUS", true, false, 0x1D, 1, 0x0, 0x20, 4, 0x8, 0x0, 0x0, 0x0, 0x0, 0x0, 0x0⟩,
    ⟨"PAR_DIE", false, true, 0x1D, 1, 0x0, 0x0, 1, 0x8, 0x0, 0x0, 0x0, 0x0, 0x0, 0x0⟩ ]

/-- The registers of a block number (R479: a block that Table 19.2 does not list has none). -/
def regTable (block : Nat) : List RegDef :=
  match block with
  | 0x1 => regTable01
  | 0x2 => regTable02
  | 0x3 => regTable03
  | 0x4 => regTable04
  | 0x5 => regTable05
  | 0x6 => regTable06
  | 0x7 => regTable07
  | 0x8 => regTable08
  | 0x9 => regTable09
  | 0x10 => regTable10
  | 0x11 => regTable11
  | 0x12 => regTable12
  | 0x13 => regTable13
  | 0x14 => regTable14
  | 0x15 => regTable15
  | 0x16 => regTable16
  | 0x17 => regTable17
  | 0x18 => regTable18
  | 0x19 => regTable19
  | 0x1A => regTable1A
  | 0x1B => regTable1B
  | 0x1C => regTable1C
  | 0x1D => regTable1D
  | _ => []

/-- The register space base (Table 1.7). -/
def regBase : Nat := 0x700000000000

/-- R480: the address of a register. -/
def regAddr (die block inner : Nat) : Nat := regBase + die * 0x10000000 + block * 0x100000 + inner

/-- The entry and local inst of `off` in a register row, when the row has it. -/
def RegDef.hit (d : RegDef) (off : Nat) : Option (Nat × Nat) :=
  let i := if d.stride = 0 then 0 else off / d.stride
  let i := if d.block = 3 then (if off < 0x400 then off / 0x100 else 0) else i
  let o := off - i * d.stride
  if i < d.insts ∧ d.off ≤ o ∧ (o - d.off) % d.step = 0 ∧ (o - d.off) / d.step < d.entries
  then some (i, (o - d.off) / d.step) else none

/-- R479: decode a register address to its row, die, local inst and entry; none answers DEFAULT. -/
def regDecode (addr : Nat) : Option (RegDef × Nat × Nat × Nat) :=
  if addr / 0x100000000 ≠ 0x7000 then none else
  let die := addr / 0x10000000 % 16
  if ¬ (die ≤ 3 ∨ die = 0xE) then none else
  let off := addr % 0x100000
  (regTable (addr / 0x100000 % 256)).findSome? fun d =>
    if (die = 0xE ∧ d.hub = true) ∨ (die ≤ 3 ∧ d.dies = true) then
      (d.hit off).map fun (i, k) => (d, die, i, k)
    else none

/-- The reset word of a register (the Reset columns of the field tables). RES_PCH n is ACTIVE with
logical n below 61 and SPARE with logical 0x3F above (R183). -/
def regReset (addr : Nat) : Word :=
  match regDecode addr with
  | none => 0#64
  | some (d, _, _, k) =>
    if d.block = 0x18 ∧ d.off = 0x100 then
      BitVec.ofNat 64 (if k < 61 then k * 2 ^ 48 else 1 * 2 ^ 56 + 0x3F * 2 ^ 48)
    else BitVec.ofNat 64 d.reset

/-! Addresses by name. A cluster number is 12d + c, a tile number 192d + 16c + t, a stack Sn, a die number 4 is H. -/
namespace R

def HUB_ID : Nat := regAddr 0xE 0x1 0x0
def HUB_CYCLE : Nat := regAddr 0xE 0x1 0x8
def HUB_BOOT_STAT : Nat := regAddr 0xE 0x1 0x10
def HUB_SVC_STAT : Nat := regAddr 0xE 0x1 0x18
def MBX_CMD_DATA (n : Nat) : Nat := regAddr 0xE 0x2 (n * 0x100 + 0x0)
def MBX_CMD_STAT (n : Nat) : Nat := regAddr 0xE 0x2 (n * 0x100 + 0x8)
def MBX_CMD_CTRL (n : Nat) : Nat := regAddr 0xE 0x2 (n * 0x100 + 0x10)
def MBX_RSP_HEAD (n : Nat) : Nat := regAddr 0xE 0x2 (n * 0x100 + 0x18)
def MBX_RSP_DATA (n : Nat) : Nat := regAddr 0xE 0x2 (n * 0x100 + 0x20)
def MBX_RSP_POS (n : Nat) : Nat := regAddr 0xE 0x2 (n * 0x100 + 0x28)
def MBX_RSP_CTRL (n : Nat) : Nat := regAddr 0xE 0x2 (n * 0x100 + 0x30)
def MBX_EVT_HEAD (n : Nat) : Nat := regAddr 0xE 0x2 (n * 0x100 + 0x38)
def MBX_EVT_DATA (n : Nat) : Nat := regAddr 0xE 0x2 (n * 0x100 + 0x40)
def LNK_CTRL (n : Nat) : Nat := regAddr 0xE 0x3 (n * 0x100 + 0x0)
def LNK_STAT (n : Nat) : Nat := regAddr 0xE 0x3 (n * 0x100 + 0x8)
def LNK_ERR (n : Nat) : Nat := regAddr 0xE 0x3 (n * 0x100 + 0x10)
def LNK_ADDR (n : Nat) : Nat := regAddr 0xE 0x3 (0x400 + 8 * n)
def LNK_SERIAL (n : Nat) : Nat := regAddr 0xE 0x3 (0x410 + 8 * n)
def SEC_LC : Nat := regAddr 0xE 0x4 0x0
def SEC_TAMPER_CTRL : Nat := regAddr 0xE 0x4 0x8
def SEC_TAMPER_STAT : Nat := regAddr 0xE 0x4 0x10
def DBG_STAT : Nat := regAddr 0xE 0x5 0x0
def DBG_SESSION (n : Nat) : Nat := regAddr 0xE 0x5 (0x20 + 8 * n)
def PWR_STAT : Nat := regAddr 0xE 0x6 0x0
def PWR_DIE (n : Nat) : Nat := regAddr n 0x6 0x0
def CLK_CLUSTER (n : Nat) : Nat := regAddr (n / 12) 0x07 (8 * (n % 12))
def DMA_CTRL (n : Nat) : Nat := regAddr 0xE 0x8 (n * 0x40 + 0x0)
def DMA_STAT (n : Nat) : Nat := regAddr 0xE 0x8 (n * 0x40 + 0x8)
def DMA_MADDR (n : Nat) : Nat := regAddr 0xE 0x8 (n * 0x40 + 0x10)
def DMA_SADDR (n : Nat) : Nat := regAddr 0xE 0x8 (n * 0x40 + 0x18)
def DMA_COUNT (n : Nat) : Nat := regAddr 0xE 0x8 (n * 0x40 + 0x20)
def EVR_PEND (n : Nat) : Nat := regAddr 0xE 0x9 (0x0 + 8 * n)
def EVR_MERGED (n : Nat) : Nat := regAddr 0xE 0x9 (0x40 + 8 * n)
def EVR_SWSET : Nat := regAddr 0xE 0x9 0x80
def FOX_CTRL (n : Nat) : Nat := regAddr (n / 12) 0x10 (n % 12 * 0x100 + 0x0)
def FOX_STAT (n k : Nat) : Nat := regAddr (n / 12) 0x10 (n % 12 * 0x100 + 0x40 + 0x20 * k)
def FOX_PC (n k : Nat) : Nat := regAddr (n / 12) 0x10 (n % 12 * 0x100 + 0x48 + 0x20 * k)
def FOX_RETIRED (n k : Nat) : Nat := regAddr (n / 12) 0x10 (n % 12 * 0x100 + 0x50 + 0x20 * k)
def FOX_TRAP (n k : Nat) : Nat := regAddr (n / 12) 0x10 (n % 12 * 0x100 + 0x58 + 0x20 * k)
def OWL_CTRL (n : Nat) : Nat := regAddr (n / 12) 0x11 (n % 12 * 0x100 + 0x0)
def OWL_STAT (n : Nat) : Nat := regAddr (n / 12) 0x11 (n % 12 * 0x100 + 0x8)
def OWL_CORE (n k : Nat) : Nat := regAddr (n / 12) 0x11 (n % 12 * 0x100 + 0x10 + 0x8 * k)
def OWL_INJ (n : Nat) : Nat := regAddr (n / 12) 0x11 (n % 12 * 0x100 + 0x30)
def OWL_INJ_PAT (n : Nat) : Nat := regAddr (n / 12) 0x11 (n % 12 * 0x100 + 0x38)
def TIL_CHAIN_HDR (n k : Nat) : Nat := regAddr (n / 12) 0x12 (n % 12 * 0x2000 + 0x0 + 0x8 * k)
def TIL_CHAIN_NODE (n k : Nat) : Nat := regAddr (n / 12) 0x12 (n % 12 * 0x2000 + 0x200 + 0x8 * k)
def TIL_CHAIN_K (n k : Nat) : Nat := regAddr (n / 12) 0x12 (n % 12 * 0x2000 + 0x1200 + 0x8 * k)
def TIL_TILE_STAT (n k : Nat) : Nat := regAddr (n / 12) 0x12 (n % 12 * 0x2000 + 0x1A00 + 0x8 * k)
def TIL_TILE_CNT (n k : Nat) : Nat := regAddr (n / 12) 0x12 (n % 12 * 0x2000 + 0x1A80 + 0x8 * k)
def XBR_STAT (n : Nat) : Nat := regAddr (n / 192) 0x13 (n % 192 * 0x8 + 0x0)
def AGU_CTRL (n : Nat) : Nat := regAddr (n / 12) 0x14 (n % 12 * 0x400 + 0x0)
def AGU_ISSUE_STAT (n : Nat) : Nat := regAddr (n / 12) 0x14 (n % 12 * 0x400 + 0x8)
def AGU_SFLT (n : Nat) : Nat := regAddr (n / 12) 0x14 (n % 12 * 0x400 + 0x10)
def AGU_SFLT_ADDR (n : Nat) : Nat := regAddr (n / 12) 0x14 (n % 12 * 0x400 + 0x18)
def AGU_ATRAP (n : Nat) : Nat := regAddr (n / 12) 0x14 (n % 12 * 0x400 + 0x20)
def AGU_ATRAP_FIRST (n : Nat) : Nat := regAddr (n / 12) 0x14 (n % 12 * 0x400 + 0x28)
def AGU_ATRAP_LAST (n : Nat) : Nat := regAddr (n / 12) 0x14 (n % 12 * 0x400 + 0x30)
def AGU_RNG_LO (n k : Nat) : Nat := regAddr (n / 12) 0x14 (n % 12 * 0x400 + 0x100 + 0x8 * k)
def AGU_RNG_HI (n k : Nat) : Nat := regAddr (n / 12) 0x14 (n % 12 * 0x400 + 0x200 + 0x8 * k)
def CMT_STAT (n : Nat) : Nat := regAddr (n / 192) 0x15 (n % 192 * 0x10 + 0x0)
def CMT_SIG (n : Nat) : Nat := regAddr (n / 192) 0x15 (n % 192 * 0x10 + 0x8)
def SCR_RAW_CTRL (n : Nat) : Nat := regAddr n 0x16 0x0
def SCR_RAW_DATA (n : Nat) : Nat := regAddr n 0x16 0x8
def SCR_RAW_STAT (n : Nat) : Nat := regAddr n 0x16 0x10
def SCR_SEC_STAT (n : Nat) : Nat := regAddr n 0x16 0x18
def FAB_CTRL (n : Nat) : Nat := regAddr (if n < 4 then n else 0xE) 0x17 0x0
def FAB_DEFERR (n : Nat) : Nat := regAddr (if n < 4 then n else 0xE) 0x17 0x8
def FAB_LINK_STAT (n k : Nat) : Nat := regAddr (if n < 4 then n else 0xE) 0x17 (0x10 + 8 * k)
def RES_SUB_CTRL (n : Nat) : Nat := regAddr n 0x18 0x0
def RES_SUB_STAT (n : Nat) : Nat := regAddr n 0x18 0x8
def RES_RET_IDX (n : Nat) : Nat := regAddr n 0x18 0x10
def RES_RET_DATA (n : Nat) : Nat := regAddr n 0x18 0x18
def RES_RET_COUNT (n : Nat) : Nat := regAddr n 0x18 0x20
def RES_PCH (n k : Nat) : Nat := regAddr n 0x18 (0x100 + 8 * k)
def MEM_STAT (n : Nat) : Nat := regAddr (n / 2) 0x19 (n % 2 * 0x200 + 0x0)
def MEM_PCH_STAT (n k : Nat) : Nat := regAddr (n / 2) 0x19 (n % 2 * 0x200 + 0x100 + 8 * k)
def ECC_BP_CTRL (n : Nat) : Nat := regAddr n 0x1A 0x0
def ECC_BP_CHECK (n : Nat) : Nat := regAddr n 0x1A 0x8
def ECC_BP_SYN (n : Nat) : Nat := regAddr n 0x1A 0x10
def ECC_COUNT (n : Nat) : Nat := regAddr n 0x1A 0x18
def HOG_CTRL (n : Nat) : Nat := regAddr n 0x1B 0x0
def HOG_STAT (n : Nat) : Nat := regAddr n 0x1B 0x8
def HOG_LAP (n : Nat) : Nat := regAddr n 0x1B 0x10
def HOG_RCT_IDX (n : Nat) : Nat := regAddr n 0x1B 0x18
def HOG_RCT_DATA (n : Nat) : Nat := regAddr n 0x1B 0x20
def HOG_RCT_STAT (n : Nat) : Nat := regAddr n 0x1B 0x28
def FLT_STAT (n : Nat) : Nat :=
  if n < 48 then regAddr (n / 12) 0x1C (n % 12 * 0x40 + 0x0)
  else if n < 76 then regAddr ((n - 48) / 7) 0x1C ((12 + (n - 48) % 7) * 0x40 + 0x0)
  else regAddr 0xE 0x1C ((n - 76) * 0x40 + 0x0)
def FLT_INFO (n : Nat) : Nat :=
  if n < 48 then regAddr (n / 12) 0x1C (n % 12 * 0x40 + 0x8)
  else if n < 76 then regAddr ((n - 48) / 7) 0x1C ((12 + (n - 48) % 7) * 0x40 + 0x8)
  else regAddr 0xE 0x1C ((n - 76) * 0x40 + 0x8)
def FLT_TIME (n : Nat) : Nat :=
  if n < 48 then regAddr (n / 12) 0x1C (n % 12 * 0x40 + 0x10)
  else if n < 76 then regAddr ((n - 48) / 7) 0x1C ((12 + (n - 48) % 7) * 0x40 + 0x10)
  else regAddr 0xE 0x1C ((n - 76) * 0x40 + 0x10)
def FLT_COUNT (n : Nat) : Nat :=
  if n < 48 then regAddr (n / 12) 0x1C (n % 12 * 0x40 + 0x18)
  else if n < 76 then regAddr ((n - 48) / 7) 0x1C ((12 + (n - 48) % 7) * 0x40 + 0x18)
  else regAddr 0xE 0x1C ((n - 76) * 0x40 + 0x18)
def FLT_FENCE (n : Nat) : Nat :=
  if n < 48 then regAddr (n / 12) 0x1C (n % 12 * 0x40 + 0x20)
  else if n < 76 then regAddr ((n - 48) / 7) 0x1C ((12 + (n - 48) % 7) * 0x40 + 0x20)
  else regAddr 0xE 0x1C ((n - 76) * 0x40 + 0x20)
def PAR_CTRL (n : Nat) : Nat := regAddr 0xE 0x1D (0x0 + 8 * n)
def PAR_STATUS (n : Nat) : Nat := regAddr 0xE 0x1D (0x20 + 8 * n)
def PAR_DIE (n : Nat) : Nat := regAddr n 0x1D 0x0

end R

/-- A register field: its highest and lowest bit. -/
structure Fld where
  hi : Nat
  lo : Nat
  deriving DecidableEq, Repr

/-! The fields by register and name (the chapters' field tables). -/
namespace F

def PAR_CTRL_EN : Fld := ⟨60, 60⟩
def PAR_CTRL_BW_SHARE : Fld := ⟨52, 48⟩
def PAR_CTRL_MIN_PAIRS : Fld := ⟨40, 32⟩
def PAR_CTRL_MIN_CLUSTERS : Fld := ⟨29, 24⟩
def PAR_CTRL_MAX_FENCED_PCH : Fld := ⟨19, 16⟩
def PAR_CTRL_OWNER : Fld := ⟨12, 12⟩
def PAR_CTRL_KX880 : Fld := ⟨9, 9⟩
def PAR_CTRL_FIXLAT : Fld := ⟨8, 8⟩
def PAR_CTRL_DIES : Fld := ⟨7, 4⟩
def PAR_CTRL_MODE_REQ : Fld := ⟨2, 0⟩
def PAR_STATUS_BUSY : Fld := ⟨40, 40⟩
def PAR_STATUS_DEBUG : Fld := ⟨39, 39⟩
def PAR_STATUS_TIMING_VOID : Fld := ⟨38, 38⟩
def PAR_STATUS_FENCED : Fld := ⟨37, 37⟩
def PAR_STATUS_DEGRADED : Fld := ⟨36, 36⟩
def PAR_STATUS_MODE : Fld := ⟨34, 32⟩
def PAR_STATUS_CL_IN_SERVICE : Fld := ⟨29, 24⟩
def PAR_STATUS_PCH_FENCED : Fld := ⟨23, 20⟩
def PAR_STATUS_PAIRS_IN_SERVICE : Fld := ⟨16, 8⟩
def AGU_CTRL_STORE_CHK : Fld := ⟨3, 3⟩
def AGU_CTRL_OOP : Fld := ⟨2, 2⟩
def AGU_CTRL_RNG_EN : Fld := ⟨1, 1⟩
def AGU_CTRL_ISSUE_EN : Fld := ⟨0, 0⟩
def AGU_RNG_LO_VALID : Fld := ⟨63, 63⟩
def AGU_RNG_LO_OUT : Fld := ⟨62, 62⟩
def AGU_RNG_LO_BASE : Fld := ⟨47, 6⟩
def AGU_RNG_HI_LAST : Fld := ⟨47, 6⟩
def AGU_ISSUE_STAT_LAST_HANDLE : Fld := ⟨63, 48⟩
def AGU_ISSUE_STAT_WAITING : Fld := ⟨38, 32⟩
def AGU_ISSUE_STAT_IN_FLIGHT : Fld := ⟨22, 16⟩
def AGU_ISSUE_STAT_REFUSED : Fld := ⟨8, 8⟩
def AGU_ISSUE_STAT_REFUSE_CODE : Fld := ⟨7, 0⟩
def AGU_SFLT_CAUSE : Fld := ⟨63, 56⟩
def AGU_SFLT_HANDLE : Fld := ⟨55, 40⟩
def AGU_SFLT_POS : Fld := ⟨39, 0⟩
def AGU_SFLT_ADDR_VALID : Fld := ⟨63, 63⟩
def AGU_SFLT_ADDR_PRECISE : Fld := ⟨62, 62⟩
def AGU_SFLT_ADDR_SLOT : Fld := ⟨61, 59⟩
def AGU_SFLT_ADDR_MORE : Fld := ⟨58, 58⟩
def AGU_SFLT_ADDR_ADDR : Fld := ⟨47, 0⟩
def TIL_CHAIN_HDR_VALID : Fld := ⟨63, 63⟩
def TIL_CHAIN_HDR_LAST_NODE : Fld := ⟨62, 60⟩
def TIL_CHAIN_HDR_TYPES : Fld := ⟨59, 48⟩
def TIL_CHAIN_HDR_USE_A : Fld := ⟨47, 47⟩
def TIL_CHAIN_HDR_USE_B : Fld := ⟨46, 46⟩
def TIL_CHAIN_HDR_USE_C : Fld := ⟨45, 45⟩
def TIL_CHAIN_HDR_D0_EN : Fld := ⟨43, 43⟩
def TIL_CHAIN_HDR_D0_NODE : Fld := ⟨42, 40⟩
def TIL_CHAIN_HDR_D1_EN : Fld := ⟨39, 39⟩
def TIL_CHAIN_HDR_D1_NODE : Fld := ⟨38, 36⟩
def TIL_CHAIN_NODE_OP : Fld := ⟨63, 57⟩
def TIL_CHAIN_NODE_UNIT : Fld := ⟨56, 54⟩
def TIL_CHAIN_NODE_TYPE : Fld := ⟨53, 50⟩
def TIL_CHAIN_NODE_SRC1 : Fld := ⟨49, 45⟩
def TIL_CHAIN_NODE_SRC2 : Fld := ⟨44, 40⟩
def TIL_CHAIN_NODE_SRC3 : Fld := ⟨39, 35⟩
def STE_IDZ : Fld := ⟨6, 6⟩
def STE_V : Fld := ⟨5, 5⟩
def STE_IX : Fld := ⟨4, 4⟩
def STE_UF : Fld := ⟨3, 3⟩
def STE_OF : Fld := ⟨2, 2⟩
def STE_DZ : Fld := ⟨1, 1⟩
def STE_IV : Fld := ⟨0, 0⟩
def AGU_ATRAP_HANDLE : Fld := ⟨63, 48⟩
def AGU_ATRAP_PRECISE : Fld := ⟨47, 47⟩
def AGU_ATRAP_MORE : Fld := ⟨46, 46⟩
def AGU_ATRAP_FLAGS : Fld := ⟨38, 32⟩
def AGU_ATRAP_FIRST_FIRST : Fld := ⟨39, 0⟩
def AGU_ATRAP_LAST_LAST : Fld := ⟨39, 0⟩
def MEM_STAT_TRAINED : Fld := ⟨40, 40⟩
def MEM_STAT_THROTTLE : Fld := ⟨39, 39⟩
def MEM_STAT_REF2X : Fld := ⟨38, 38⟩
def MEM_STAT_PSTATE : Fld := ⟨33, 32⟩
def MEM_STAT_TEMP_MAX : Fld := ⟨31, 24⟩
def MEM_STAT_TEMP : Fld := ⟨23, 16⟩
def RES_PCH_STATE : Fld := ⟨58, 56⟩
def RES_PCH_LOGICAL : Fld := ⟨53, 48⟩
def RES_SUB_CTRL_SPARE : Fld := ⟨15, 10⟩
def RES_SUB_CTRL_TARGET : Fld := ⟨7, 2⟩
def RES_SUB_CTRL_COPY : Fld := ⟨1, 1⟩
def RES_SUB_CTRL_START : Fld := ⟨0, 0⟩
def RES_SUB_STAT_BUSY : Fld := ⟨63, 63⟩
def RES_SUB_STAT_DONE : Fld := ⟨62, 62⟩
def RES_SUB_STAT_ABANDONED : Fld := ⟨61, 61⟩
def RES_SUB_STAT_UCE_COUNT : Fld := ⟨55, 32⟩
def RES_SUB_STAT_PROGRESS : Fld := ⟨23, 0⟩
def RES_RET_IDX_INDEX : Fld := ⟨11, 0⟩
def RES_RET_DATA_VALID : Fld := ⟨63, 63⟩
def RES_RET_DATA_PENDING : Fld := ⟨62, 62⟩
def RES_RET_DATA_PAGE : Fld := ⟨19, 0⟩
def RES_RET_COUNT_COUNT : Fld := ⟨12, 0⟩
def FAB_CTRL_CRED_RESERVE : Fld := ⟨23, 16⟩
def FAB_CTRL_KX880 : Fld := ⟨9, 9⟩
def FAB_CTRL_FIXLAT : Fld := ⟨8, 8⟩
def FAB_CTRL_PARK_EN : Fld := ⟨0, 0⟩
def FAB_LINK_STAT_UP : Fld := ⟨63, 63⟩
def FAB_LINK_STAT_FENCED : Fld := ⟨62, 62⟩
def FAB_LINK_STAT_HOLD_COUNT : Fld := ⟨47, 32⟩
def FAB_LINK_STAT_REPLAY_COUNT : Fld := ⟨31, 16⟩
def FAB_LINK_STAT_CRED_MIN : Fld := ⟨13, 8⟩
def FAB_LINK_STAT_CRED_AVAIL : Fld := ⟨5, 0⟩
def FAB_DEFERR_VALID : Fld := ⟨63, 63⟩
def FAB_DEFERR_MORE : Fld := ⟨62, 62⟩
def FAB_DEFERR_WRITE : Fld := ⟨61, 61⟩
def FAB_DEFERR_PTAG : Fld := ⟨60, 59⟩
def FAB_DEFERR_MASTER : Fld := ⟨55, 49⟩
def FAB_DEFERR_ADDR : Fld := ⟨47, 0⟩
def SCR_RAW_CTRL_EN : Fld := ⟨63, 63⟩
def SCR_RAW_CTRL_WORD : Fld := ⟨41, 32⟩
def SCR_RAW_CTRL_MACRO : Fld := ⟨25, 24⟩
def SCR_RAW_CTRL_SUBBANK : Fld := ⟨21, 16⟩
def SCR_RAW_CTRL_BANK : Fld := ⟨13, 8⟩
def SCR_RAW_CTRL_WRITE : Fld := ⟨1, 1⟩
def SCR_RAW_CTRL_GO : Fld := ⟨0, 0⟩
def SCR_RAW_STAT_DONE : Fld := ⟨63, 63⟩
def SCR_RAW_STAT_BUSY_SEEN : Fld := ⟨62, 62⟩
def SCR_RAW_STAT_REFUSED : Fld := ⟨61, 61⟩
def SCR_RAW_STAT_CHECK : Fld := ⟨7, 0⟩
def SCR_SEC_STAT_WIPING : Fld := ⟨63, 63⟩
def SCR_SEC_STAT_WIPE_COUNT : Fld := ⟨47, 32⟩
def SCR_SEC_STAT_LAST_CAUSE : Fld := ⟨7, 0⟩
def FLAGS_N : Fld := ⟨3, 3⟩
def FLAGS_Z : Fld := ⟨2, 2⟩
def FLAGS_C : Fld := ⟨1, 1⟩
def FLAGS_V : Fld := ⟨0, 0⟩
def CORECFG_PRECISE : Fld := ⟨2, 2⟩
def CORECFG_MULFIX : Fld := ⟨1, 1⟩
def EVBASE_ADDR : Fld := ⟨47, 8⟩
def ESCBASE_ADDR : Fld := ⟨47, 8⟩
def CAUSE_IMPRECISE : Fld := ⟨8, 8⟩
def CAUSE_CODE : Fld := ⟨7, 0⟩
def EREC_CTX : Fld := ⟨47, 16⟩
def EREC_PRIV : Fld := ⟨15, 8⟩
def EREC_DEPTH : Fld := ⟨3, 0⟩
def CRITSTAT_OPEN : Fld := ⟨10, 10⟩
def CRITSTAT_REMAIN : Fld := ⟨9, 0⟩
def CTXSTAT_SPILL_BUSY : Fld := ⟨28, 28⟩
def CTXSTAT_SPILL_ID : Fld := ⟨27, 24⟩
def CTXSTAT_RESIDENT : Fld := ⟨23, 16⟩
def CTXSTAT_LIVE : Fld := ⟨15, 8⟩
def CTXSTAT_EXC : Fld := ⟨4, 4⟩
def CTXSTAT_CUR : Fld := ⟨3, 0⟩
def CTXCTL_OP : Fld := ⟨9, 8⟩
def CTXCTL_ID : Fld := ⟨3, 0⟩
def ESC_PC_PC : Fld := ⟨47, 0⟩
def ESC_STATE_CAUSE : Fld := ⟨63, 56⟩
def ESC_STATE_IMPRECISE : Fld := ⟨55, 55⟩
def ESC_STATE_ACTIVE : Fld := ⟨54, 54⟩
def ESC_STATE_REASON : Fld := ⟨15, 8⟩
def ESC_STATE_FLAGS : Fld := ⟨3, 0⟩
def SSDEPTH_DEPTH : Fld := ⟨8, 0⟩
def SAVEHEAD_ADDR : Fld := ⟨47, 7⟩
def OWL_CTRL_TESTCFG : Fld := ⟨1, 0⟩
def OWL_STAT_HB_PHASE : Fld := ⟨59, 48⟩
def OWL_STAT_STOP_COUNT : Fld := ⟨45, 44⟩
def OWL_STAT_RESYNC_CORE : Fld := ⟨37, 36⟩
def OWL_STAT_RESYNC_BUSY : Fld := ⟨35, 35⟩
def OWL_STAT_CONFIG : Fld := ⟨34, 32⟩
def OWL_CORE_ROLE : Fld := ⟨63, 62⟩
def OWL_CORE_FENCED : Fld := ⟨61, 61⟩
def OWL_CORE_SELFTEST_FAIL : Fld := ⟨60, 60⟩
def OWL_CORE_RESYNC_RECENT : Fld := ⟨59, 58⟩
def OWL_CORE_RESYNC_TOTAL : Fld := ⟨55, 40⟩
def OWL_CORE_LAST_RESYNC : Fld := ⟨39, 0⟩
def OWL_INJ_ARMED : Fld := ⟨63, 63⟩
def OWL_INJ_FIRED : Fld := ⟨62, 62⟩
def OWL_INJ_COINCIDENT : Fld := ⟨61, 61⟩
def OWL_INJ_POINT : Fld := ⟨15, 12⟩
def OWL_INJ_TARGET : Fld := ⟨7, 4⟩
def CMT_STAT_MISMATCH_TOTAL : Fld := ⟨63, 48⟩
def CMT_STAT_MISMATCH_RECENT : Fld := ⟨47, 46⟩
def CMT_STAT_HB_PHASE : Fld := ⟨43, 32⟩
def CMT_STAT_D1_WINDOWS : Fld := ⟨27, 26⟩
def CMT_STAT_D0_WINDOWS : Fld := ⟨25, 24⟩
def CMT_STAT_PAIRED : Fld := ⟨0, 0⟩
def ECC_BP_CTRL_EN : Fld := ⟨63, 63⟩
def ECC_BP_CTRL_SCRATCH : Fld := ⟨62, 62⟩
def ECC_BP_CTRL_PAGE : Fld := ⟨19, 0⟩
def ECC_BP_CHECK_PATTERN : Fld := ⟨7, 0⟩
def ECC_BP_SYN_VALID : Fld := ⟨63, 63⟩
def ECC_BP_SYN_SYN : Fld := ⟨55, 48⟩
def ECC_BP_SYN_ADDR : Fld := ⟨47, 0⟩
def ECC_COUNT_UCE_DRAM : Fld := ⟨63, 56⟩
def ECC_COUNT_UCE_SCR : Fld := ⟨55, 48⟩
def ECC_COUNT_HOP_EXH : Fld := ⟨47, 44⟩
def ECC_COUNT_HOP_CE : Fld := ⟨43, 32⟩
def ECC_COUNT_CE_DRAM : Fld := ⟨31, 16⟩
def ECC_COUNT_CE_SCR : Fld := ⟨15, 0⟩
def HOG_CTRL_DRAM_EN : Fld := ⟨63, 63⟩
def HOG_CTRL_SCR_EN : Fld := ⟨62, 62⟩
def HOG_CTRL_LAP_LIMIT : Fld := ⟨47, 32⟩
def HOG_CTRL_PCH_SUSPECT : Fld := ⟨11, 8⟩
def HOG_CTRL_THRESHOLD : Fld := ⟨2, 0⟩
def HOG_STAT_ACTIVE : Fld := ⟨63, 63⟩
def HOG_STAT_OVERDUE : Fld := ⟨62, 62⟩
def HOG_STAT_PAUSED : Fld := ⟨61, 61⟩
def HOG_STAT_IN_SCRATCH : Fld := ⟨60, 60⟩
def HOG_STAT_LAP_COUNT : Fld := ⟨31, 0⟩
def HOG_LAP_POS : Fld := ⟨61, 32⟩
def HOG_LAP_SCR_LAP_MS : Fld := ⟨31, 0⟩
def HOG_RCT_IDX_INDEX : Fld := ⟨5, 0⟩
def HOG_RCT_DATA_STATE : Fld := ⟨63, 62⟩
def HOG_RCT_DATA_SCRATCH : Fld := ⟨61, 61⟩
def HOG_RCT_DATA_COUNT : Fld := ⟨60, 58⟩
def HOG_RCT_DATA_REC : Fld := ⟨57, 57⟩
def HOG_RCT_DATA_REC_KIND : Fld := ⟨56, 55⟩
def HOG_RCT_DATA_BIT : Fld := ⟨54, 48⟩
def HOG_RCT_DATA_WADDR : Fld := ⟨44, 0⟩
def HOG_RCT_STAT_DROPPED : Fld := ⟨63, 48⟩
def HOG_RCT_STAT_SUSPECTS : Fld := ⟨14, 8⟩
def HOG_RCT_STAT_USED : Fld := ⟨6, 0⟩
def FLT_STAT_VALID : Fld := ⟨63, 63⟩
def FLT_STAT_OVF : Fld := ⟨62, 62⟩
def FLT_STAT_INJ : Fld := ⟨61, 61⟩
def FLT_STAT_INJ_COINCIDENT : Fld := ⟨60, 60⟩
def FLT_STAT_CLASS : Fld := ⟨58, 56⟩
def FLT_STAT_REACTION : Fld := ⟨55, 52⟩
def FLT_STAT_RECOVERY : Fld := ⟨51, 48⟩
def FLT_STAT_LEVEL : Fld := ⟨46, 44⟩
def FLT_STAT_PART : Fld := ⟨43, 42⟩
def FLT_STAT_PVALID : Fld := ⟨41, 41⟩
def FLT_STAT_SOURCE : Fld := ⟨39, 32⟩
def FLT_STAT_LOC : Fld := ⟨31, 0⟩
def FLT_INFO_JOB : Fld := ⟨63, 32⟩
def FLT_INFO_QUAR : Fld := ⟨31, 31⟩
def FLT_INFO_JOBS : Fld := ⟨29, 24⟩
def FLT_INFO_DETAIL : Fld := ⟨23, 0⟩
def FLT_COUNT_CE : Fld := ⟨63, 48⟩
def FLT_COUNT_UCC : Fld := ⟨47, 32⟩
def FLT_COUNT_FTL : Fld := ⟨31, 24⟩
def FLT_COUNT_CONSEQ : Fld := ⟨23, 8⟩
def LNK_CTRL_CRC_EVT_LIMIT : Fld := ⟨23, 16⟩
def LNK_CTRL_RETRAIN : Fld := ⟨1, 1⟩
def LNK_CTRL_DOWN_EN : Fld := ⟨0, 0⟩
def LNK_STAT_UP : Fld := ⟨63, 63⟩
def LNK_STAT_STATE : Fld := ⟨62, 60⟩
def LNK_STAT_LANE_LOCK : Fld := ⟨59, 56⟩
def LNK_STAT_RETRAINS : Fld := ⟨55, 48⟩
def LNK_STAT_RX_EXPECT : Fld := ⟨43, 32⟩
def LNK_STAT_TX_NEXT : Fld := ⟨31, 20⟩
def LNK_STAT_UNACKED : Fld := ⟨19, 13⟩
def LNK_STAT_CREDITS : Fld := ⟨12, 7⟩
def LNK_ERR_CRC : Fld := ⟨63, 48⟩
def LNK_ERR_RETX : Fld := ⟨47, 32⟩
def LNK_ERR_DISCARD : Fld := ⟨31, 16⟩
def LNK_ERR_LOST_BUF : Fld := ⟨15, 8⟩
def LNK_ERR_LOCK_LOSS : Fld := ⟨7, 0⟩
def LNK_ADDR_ASSIGNED : Fld := ⟨6, 6⟩
def LNK_ADDR_ADDR : Fld := ⟨5, 0⟩
def MBX_CMD_STAT_ACCEPT : Fld := ⟨63, 63⟩
def MBX_CMD_STAT_FRAMING : Fld := ⟨62, 62⟩
def MBX_CMD_STAT_EXP_VALID : Fld := ⟨61, 61⟩
def MBX_CMD_STAT_EXPECT : Fld := ⟨47, 32⟩
def MBX_CMD_STAT_FREE : Fld := ⟨18, 0⟩
def MBX_CMD_CTRL_NOTIFY_EN : Fld := ⟨8, 8⟩
def MBX_CMD_CTRL_RESYNC : Fld := ⟨0, 0⟩
def MBX_RSP_HEAD_READY : Fld := ⟨63, 63⟩
def MBX_RSP_HEAD_MID : Fld := ⟨62, 62⟩
def MBX_RSP_HEAD_AVAIL : Fld := ⟨50, 32⟩
def MBX_RSP_HEAD_TAG : Fld := ⟨31, 16⟩
def MBX_RSP_HEAD_RSEQ : Fld := ⟨15, 0⟩
def MBX_RSP_POS_RSEQ : Fld := ⟨63, 48⟩
def MBX_RSP_POS_KEPT : Fld := ⟨47, 35⟩
def MBX_RSP_POS_WIDX : Fld := ⟨33, 0⟩
def MBX_RSP_CTRL_BACK : Fld := ⟨12, 0⟩
def MBX_EVT_HEAD_READY : Fld := ⟨63, 63⟩
def MBX_EVT_HEAD_LOST : Fld := ⟨62, 62⟩
def MBX_EVT_HEAD_COUNT : Fld := ⟨44, 32⟩
def MBX_EVT_HEAD_ESEQ : Fld := ⟨15, 0⟩
def HUB_BOOT_STAT_READY : Fld := ⟨63, 63⟩
def HUB_BOOT_STAT_FAILED : Fld := ⟨62, 62⟩
def HUB_BOOT_STAT_IMAGE : Fld := ⟨61, 60⟩
def HUB_BOOT_STAT_STAGE : Fld := ⟨59, 56⟩
def HUB_BOOT_STAT_A_CAUSE : Fld := ⟨55, 48⟩
def HUB_BOOT_STAT_B_CAUSE : Fld := ⟨47, 40⟩
def HUB_BOOT_STAT_READY_MS : Fld := ⟨31, 0⟩
def EVR_SWSET_RAISE : Fld := ⟨15, 0⟩
def SEC_LC_LC_GROUPS : Fld := ⟨20, 16⟩
def SEC_LC_MIN_SVN : Fld := ⟨15, 8⟩
def SEC_LC_STATE : Fld := ⟨2, 0⟩
def SEC_TAMPER_CTRL_LID_FILTER : Fld := ⟨15, 8⟩
def SEC_TAMPER_CTRL_ARM : Fld := ⟨0, 0⟩
def SEC_TAMPER_STAT_LATCHED : Fld := ⟨63, 63⟩
def SEC_TAMPER_STAT_LID_OPEN : Fld := ⟨62, 62⟩
def SEC_TAMPER_STAT_MESH_OPEN : Fld := ⟨61, 61⟩
def SEC_TAMPER_STAT_MESH_SHORT : Fld := ⟨60, 60⟩
def SEC_TAMPER_STAT_COUNT : Fld := ⟨15, 0⟩
def DBG_STAT_LC_STATE : Fld := ⟨63, 61⟩
def DBG_STAT_TAMPERED : Fld := ⟨60, 60⟩
def DBG_STAT_LOCKED : Fld := ⟨59, 59⟩
def DBG_STAT_LOCK_REMAIN : Fld := ⟨47, 32⟩
def DBG_STAT_FAIL_COUNT : Fld := ⟨3, 0⟩
def DBG_SESSION_OPEN : Fld := ⟨63, 63⟩
def DBG_SESSION_NONCE : Fld := ⟨62, 62⟩
def DBG_SESSION_NONCE_AGE : Fld := ⟨55, 48⟩
def DBG_SESSION_CRED : Fld := ⟨9, 8⟩
def DBG_SESSION_REDUCED : Fld := ⟨4, 4⟩
def DBG_SESSION_LEVEL : Fld := ⟨1, 0⟩
def PWR_STAT_BUSY : Fld := ⟨60, 60⟩
def PWR_STAT_TARGET : Fld := ⟨59, 58⟩
def PWR_STAT_STATE : Fld := ⟨57, 56⟩
def PWR_STAT_FEED2_OK : Fld := ⟨49, 49⟩
def PWR_STAT_FEED1_OK : Fld := ⟨48, 48⟩
def PWR_STAT_FEED2_V : Fld := ⟨47, 40⟩
def PWR_STAT_FEED1_V : Fld := ⟨39, 32⟩
def PWR_STAT_INPUT_W : Fld := ⟨31, 16⟩
def PWR_STAT_PLIMIT : Fld := ⟨0, 0⟩
def PWR_DIE_TJ_MAX : Fld := ⟨39, 32⟩
def PWR_DIE_TJ : Fld := ⟨31, 24⟩
def PWR_DIE_THERM : Fld := ⟨19, 18⟩
def PWR_DIE_DIE_W : Fld := ⟨15, 0⟩
def CLK_CLUSTER_GATED : Fld := ⟨63, 63⟩
def CLK_CLUSTER_PINNED : Fld := ⟨62, 62⟩
def CLK_CLUSTER_PROTECT : Fld := ⟨61, 61⟩
def CLK_CLUSTER_BOOST : Fld := ⟨60, 60⟩
def CLK_CLUSTER_POLICY_MHZ : Fld := ⟨43, 32⟩
def CLK_CLUSTER_CUR_MHZ : Fld := ⟨11, 0⟩
def HUB_ID_DEVICE : Fld := ⟨63, 48⟩
def HUB_ID_VARIANT : Fld := ⟨47, 40⟩
def HUB_ID_STEPPING : Fld := ⟨39, 32⟩
def HUB_SVC_STAT_BUSY : Fld := ⟨63, 63⟩
def HUB_SVC_STAT_SMBUS_ADDR : Fld := ⟨54, 48⟩
def HUB_SVC_STAT_SLOT_ID : Fld := ⟨42, 40⟩
def HUB_SVC_STAT_PEC_ERR : Fld := ⟨15, 0⟩
def DMA_CTRL_SECURE : Fld := ⟨61, 61⟩
def DMA_CTRL_PTAG : Fld := ⟨60, 59⟩
def DMA_CTRL_DIR : Fld := ⟨56, 56⟩
def DMA_CTRL_START : Fld := ⟨0, 0⟩
def DMA_STAT_BUSY : Fld := ⟨63, 63⟩
def DMA_STAT_HALTED : Fld := ⟨62, 62⟩
def DMA_STAT_RESP : Fld := ⟨61, 60⟩
def DMA_STAT_FAIL_IDX : Fld := ⟨31, 0⟩
def DMA_MADDR_ADDR : Fld := ⟨47, 3⟩
def DMA_SADDR_OFFSET : Fld := ⟨23, 3⟩
def DMA_COUNT_WORDS : Fld := ⟨31, 0⟩
def FOX_CTRL_HOLD : Fld := ⟨63, 63⟩
def FOX_CTRL_ENTRY : Fld := ⟨47, 2⟩
def FOX_STAT_RUN : Fld := ⟨63, 61⟩
def FOX_STAT_PRIV : Fld := ⟨60, 60⟩
def FOX_STAT_EXC : Fld := ⟨59, 59⟩
def FOX_STAT_CRIT : Fld := ⟨58, 58⟩
def FOX_STAT_ESC : Fld := ⟨57, 57⟩
def FOX_STAT_CTX : Fld := ⟨55, 52⟩
def FOX_STAT_DEPTH : Fld := ⟨51, 48⟩
def FOX_PC_PC : Fld := ⟨47, 0⟩
def FOX_TRAP_CAUSE : Fld := ⟨63, 56⟩
def FOX_TRAP_IMPRECISE : Fld := ⟨55, 55⟩
def FOX_TRAP_REASON : Fld := ⟨47, 40⟩
def TIL_TILE_STAT_IN_SERVICE : Fld := ⟨63, 63⟩
def TIL_TILE_STAT_FENCED : Fld := ⟨62, 62⟩
def TIL_TILE_STAT_ACTIVE : Fld := ⟨61, 61⟩
def TIL_TILE_STAT_PREC : Fld := ⟨60, 60⟩
def TIL_TILE_STAT_UNIT : Fld := ⟨47, 40⟩
def TIL_TILE_STAT_SLOT : Fld := ⟨37, 32⟩
def TIL_TILE_STAT_BLOCK : Fld := ⟨31, 0⟩
def TIL_TILE_CNT_BLOCKS : Fld := ⟨63, 32⟩
def TIL_TILE_CNT_CMT_STALL : Fld := ⟨31, 0⟩
def XBR_STAT_REPLAYS : Fld := ⟨47, 32⟩
def XBR_STAT_LOADED : Fld := ⟨7, 7⟩
def XBR_STAT_CHAIN : Fld := ⟨5, 0⟩
def MEM_PCH_STAT_TRAINED : Fld := ⟨63, 63⟩
def MEM_PCH_STAT_TRAIN_FAIL : Fld := ⟨62, 62⟩
def MEM_PCH_STAT_RETRAINS : Fld := ⟨55, 48⟩
def MEM_PCH_STAT_UCE_LAP : Fld := ⟨39, 32⟩
def MEM_PCH_STAT_CE : Fld := ⟨31, 16⟩
def PAR_DIE_MEMBER : Fld := ⟨63, 63⟩
def PAR_DIE_PART : Fld := ⟨57, 56⟩
def PAR_DIE_DIES : Fld := ⟨55, 52⟩
def PAR_DIE_FENCED : Fld := ⟨10, 10⟩
def PAR_DIE_KX880 : Fld := ⟨9, 9⟩
def PAR_DIE_FIXLAT : Fld := ⟨8, 8⟩
def PAR_DIE_MODE : Fld := ⟨2, 0⟩

end F

end Sys2Proof.Machine
end

