-- ==== Sys2Proof/Machine/Bits.lean ====
section
/-! DEFINITION. Machine/Bits.lean: register fields, signed readings, byte order (R3), sparse maps and the CRCs that the
spec names (CRC-64 for signatures, CRC-32 for frames). -/

namespace Sys2Proof.Machine

/-- The bits [hi:lo] of a natural number. -/
def bits (w hi lo : Nat) : Nat := w / 2 ^ lo % 2 ^ (hi + 1 - lo)

/-- R7: a location code at its level: every field below the level holds all ones. At L3 a pseudo-channel of a stack takes IDX2[11:10] as well
(R8). -/
def locAt (level loc : Nat) : Nat :=
  let unit4 := loc / 2 ^ 24 % 16
  let dram := decide (loc / 2 ^ 28 < 4) && (unit4 == 0xC || unit4 == 0xD)
  let low := match level with
    | 0 | 1 => 0
    | 2 => 8
    | 3 => if dram then 18 else 20
    | 4 => 24
    | 5 => 28
    | _ => 32
  (loc / 2 ^ low * 2 ^ low + (2 ^ low - 1)) % 2 ^ 32

/-- Bit k of a natural number. -/
def bit (w k : Nat) : Bool := w / 2 ^ k % 2 == 1

/-- `w` with the bits [hi:lo] replaced by `v`. -/
def putBits (w hi lo v : Nat) : Nat :=
  w / 2 ^ (hi + 1) * 2 ^ (hi + 1) + v % 2 ^ (hi + 1 - lo) * 2 ^ lo + w % 2 ^ lo

/-- A truth value as a bit. -/
def b2n (b : Bool) : Nat := if b then 1 else 0

/-- The value of a field of a register word. -/
def fget (w : Word) (f : Fld) : Nat := bits w.toNat f.hi f.lo

/-- A register word with one field replaced. -/
def fput (w : Word) (f : Fld) (v : Nat) : Word := BitVec.ofNat 64 (putBits w.toNat f.hi f.lo v)

/-- One field of a register word under composition: `v` placed at the field. -/
def fat (f : Fld) (v : Nat) : Nat := v % 2 ^ (f.hi + 1 - f.lo) * 2 ^ f.lo

/-- A count that saturates at the width of its field (counters of chapters 11 to 19). -/
def satAdd (v n max : Nat) : Nat := if v + n ≤ max then v + n else max

/-- Two's complement reading of the low `n` bits. -/
def sx (n w : Nat) : Int :=
  let v := w % 2 ^ n
  if v < 2 ^ (n - 1) then (v : Int) else (v : Int) - (2 ^ n : Nat)

/-- The 64-bit word of an integer, modulo 2^64. -/
def wInt (i : Int) : Word := BitVec.ofInt 64 i

/-- The 64-bit word of a natural number, modulo 2^64. -/
def wNat (n : Nat) : Word := BitVec.ofNat 64 n

/-- Little-endian bytes of a number (R3). -/
def bytesLE (n w : Nat) : List Byte := (List.range n).map fun i => BitVec.ofNat 8 (w / 2 ^ (8 * i))

/-- The number that little-endian bytes spell. -/
def natLE (l : List Byte) : Nat := l.foldr (fun b a => b.toNat + 256 * a) 0

/-- Big-endian number of a byte list. -/
def natBE (l : List Byte) : Nat := l.foldl (fun a b => a * 256 + b.toNat) 0

/-- Big-endian bytes of a number. -/
def bytesBE (n w : Nat) : List Byte := (bytesLE n w).reverse

/-- Number of one bits among the low `n` bits. -/
def popcount (n w : Nat) : Nat := ((List.range n).filter fun i => bit w i).length

/-- The positions of the one bits among the low `n` bits, ascending. -/
def onesOf (n w : Nat) : List Nat := (List.range n).filter fun i => bit w i

/-- The number whose one bits are the listed positions (each listed once). -/
def maskOf (l : List Nat) : Nat := l.foldl (fun a i => a + 2 ^ i) 0

/-! Sparse maps: lists of key and value with strictly rising keys. -/

/-- The value of a key, or the default. -/
def mget {α : Type} (d : α) : List (Nat × α) → Nat → α
  | [], _ => d
  | (k, v) :: r, i => if i = k then v else mget d r i

/-- The value of a key, if it is listed. -/
def mget? {α : Type} : List (Nat × α) → Nat → Option α
  | [], _ => none
  | (k, v) :: r, i => if i = k then some v else mget? r i

/-- The map with one key set. -/
def mset {α : Type} : List (Nat × α) → Nat → α → List (Nat × α)
  | [], i, x => [(i, x)]
  | (k, v) :: r, i, x =>
    if i < k then (i, x) :: (k, v) :: r
    else if i = k then (i, x) :: r
    else (k, v) :: mset r i x

/-- The map with one key removed. -/
def mdel {α : Type} : List (Nat × α) → Nat → List (Nat × α)
  | [], _ => []
  | (k, v) :: r, i => if i = k then r else (k, v) :: mdel r i

/-- List update at a position; nothing when the position is past the end. -/
def lset {α : Type} : List α → Nat → α → List α
  | [], _, _ => []
  | _ :: r, 0, x => x :: r
  | a :: r, n + 1, x => a :: lset r n x

/-- The list without the first element that meets `p`. -/
def dropFirst {α : Type} (p : α → Bool) : List α → List α
  | [] => []
  | a :: r => if p a then r else a :: dropFirst p r

/-- The last `n` elements. -/
def lastN {α : Type} (n : Nat) (l : List α) : List α := l.drop (l.length - n)

/-- Exclusive or on naturals below 2^n. -/
def nxor (a b : Nat) : Nat := Nat.xor a b

/-- One bit step of a CRC-64 with polynomial 0x42F0_E1EB_A9EA_3693, most significant bit first. -/
def crc64Bit (crc : Nat) : Nat :=
  let t := crc * 2 % 2 ^ 64
  if bit crc 63 then nxor t 0x42F0E1EBA9EA3693 else t

/-- One byte of the CRC-64, not reflected. -/
def crc64Byte (crc b : Nat) : Nat :=
  (List.range 8).foldl (fun c _ => crc64Bit c) (nxor crc (b * 2 ^ 56))

/-- Bytes into a CRC-64. -/
def crc64Bytes (crc : Nat) (l : List Byte) : Nat := l.foldl (fun c b => crc64Byte c b.toNat) crc

/-- One byte into the CRC-32 of IEEE 802.3, reflected: polynomial 0x04C1_1DB7 as 0xEDB8_8320. -/
def crc32Byte (crc b : Nat) : Nat :=
  (List.range 8).foldl (fun c _ => if c % 2 = 1 then nxor (c / 2) 0xEDB88320 else c / 2) (nxor crc b)

/-- The CRC-32 of IEEE 802.3 over bytes: preset to ones and complemented. -/
def crc32 (l : List Byte) : Nat := nxor (l.foldl (fun c b => crc32Byte c b.toNat) (2 ^ 32 - 1)) (2 ^ 32 - 1)

/-- Preset of a CRC-64 signature: all ones. -/
def crc64Init : Nat := 2 ^ 64 - 1

/-- R213: scratch decode: port, bank, sub-bank, RAM block and word of an offset. -/
def scrPlace (off : Nat) : Nat × Nat × Nat × Nat × Nat :=
  let n := off / 256
  (n % 96, off / 8 % 64, n % 96 / 2, n / 96 / 1024, n / 96 % 1024)

/-- The number of a word slot: its die, sub-bank and bank (R212, R213). DEDUCED (log 81): each word of hub SRAM is a slot of its own. -/
def slotNo (d off : Nat) : Nat :=
  if d < 4 then d * 3072 + (scrPlace off).2.2.1 * 64 + (scrPlace off).2.1 else 12288 + off / 8

end Sys2Proof.Machine
end

