-- ==== Sys2Proof/Syntax.lean ====
section
/-! DEFINITION. Syntax.lean: the commands of the module, one constructor of Instr per row of the manual's table of
operations and events (opcode_table.json), and the types of their operands. An operand is either what the manual's
step carries (a register number, a command's words, a frame) or what the world outside decides at
that step (which part fails a test, a temperature reading, the level of a pin). -/

namespace Sys2Proof

/-- A general register, or a V register, of the current context (R231, R233). -/
abbrev Reg := Fin 16

/-- Which cores run an instruction row: the triad or pair of a cluster 12d + c, or the Badger pair (R230). -/
inductive Tgt where
  | fox (cl : Fin 48)
  | badger
  deriving DecidableEq, Repr

/-- The two memory operand forms: banked (R239) and register (R240). -/
inductive MemOp where
  | banked (n : Fin 8) (u : BitVec 16)
  | based (a : Reg) (disp : BitVec 16)
  deriving DecidableEq, Repr

/-- A short operation (Table 9.5). -/
inductive ShortOp where
  | nop
  | mov (d a : Reg)
  | add (d a : Reg)
  | sub (d a : Reg)
  | and (d a : Reg)
  | or (d a : Reg)
  | xor (d a : Reg)
  | not (d a : Reg)
  | movi (d : Reg) (u : BitVec 4)
  | addi (d : Reg) (u : BitVec 4)
  | subi (d : Reg) (u : BitVec 4)
  | shli (d : Reg) (u : BitVec 4)
  | shri (d : Reg) (u : BitVec 4)
  | sari (d : Reg) (u : BitVec 4)
  | cmp (d a : Reg)
  | cmpi (d : Reg) (u : BitVec 4)
  | tst (d a : Reg)
  deriving DecidableEq, Repr

/-- A Terind command as its words arrived (Table 15.2): the chain that sent it, the header fields and the words after
the header. LEN is the number of those words. -/
structure Cmd where
  chain : Nat
  op : Nat
  part : Nat
  mod : Bool
  tag : Nat
  cseq : Nat
  params : List Word
  deriving DecidableEq, Repr

/-- An access request of a Fox core (R293): address, size in bytes, direction and store data. -/
structure Request where
  addr : Nat
  size : Nat
  write : Bool
  data : Nat
  deriving DecidableEq, Repr

/-- A Kongerax frame as it arrives or leaves (Tables 14.1 and 14.2): type, destination, source, TAG, link fields, header
word H1, data words (N is their number) and the CRC of its trailer. -/
structure Frame where
  typ : Nat
  dst : Nat
  src : Nat
  tag : Nat
  seq : Nat
  ack : Nat
  nak : Bool
  h1 : Word
  data : List Word
  crc : BitVec 32
  deriving DecidableEq, Repr

/-- A step of a port's training (R396): a signal is found, the start-up of Clause 93 ends, a lane gains block lock, two consecutive alignment
blocks have been seen on every lane (each by its block time and its count), the partner's LINK frame with its RX_EXPECT and SEQ arrives at
INIT, or a step fails. -/
inductive TrainStep where
  | signal
  | trained
  | laneLock (lane : Fin 4)
  | aligned (a b : List (Nat × Nat))
  | init (rxe seq : BitVec 12)
  | failed
  deriving DecidableEq, Repr

/-- Who writes a register (R4, R13, R484). -/
inductive Master where
  | badger
  | host (ch : Fin 2)
  | foxExec (cl : Fin 48)
  | debug (p : Fin 4)
  deriving DecidableEq, Repr

/-- A burst that a master issues, or a piece of one (R193): the die whose matrix it enters, its master port (Table 7.1, R192), the ID that its
master chooses (R198), direction, address, the words of a write with their byte enables, or how many words a read asks for, and the job it
is made for. -/
structure Piece where
  die : Nat
  port : Nat
  id : Nat
  write : Bool
  addr : Nat
  words : List (Word × BitVec 8)
  nwords : Nat
  job : Option Nat
  deriving DecidableEq, Repr

/-- One access of a scratch word slot (R215): the master's number, and the word written with its byte enables, or none
for a read. -/
structure SlotAccess where
  master : Nat
  off : Nat
  write : Option (Word × BitVec 8)
  job : Option Nat
  deriving DecidableEq, Repr

/-- What a decision meets beside the signatures that it compares (R317, R318): whether its rails disagree, and the report of the heartbeat
comparison when one follows. -/
structure Rails where
  apart : Bool := false
  beat : Option Word := none
  deriving DecidableEq, Repr

/-- A target port of a die's matrix (Table 7.2). -/
structure MatrixPort where
  die : Fin 5
  port : Nat
  deriving DecidableEq, Repr

/-- A word written to a register, and the W1C bits that hardware sets there in the same cycle (R4, Table 0.2). -/
structure RegWord where
  word : Word
  set : Word := 0#64
  deriving DecidableEq, Repr

/-- A hop of a transfer (Table 12.1): its DETAIL code (Table 13.4), the die whose island receives, the
cluster or link endpoint and channel, the master port and the jobs that own the transfer. -/
structure Hop where
  code : Nat
  die : Nat
  unit : Nat
  ch : Nat
  port : Nat
  jobs : List Nat
  deriving DecidableEq, Repr

/-- What a detector reports (R352, Table 13.7): its source code, the fault status inst that it writes, the location of
the faulty part and its level, DETAIL, the jobs that own the transfer or read (Table 13.9), the unit that the
reaction fences (pair, core, pseudo-channel, or 3i + j for channel j of link endpoint i; for source 0x62, the partition; for source 0x11, 1 when the
requester is a hub DMA channel; for source 0x04, the core whose cache it is), the class of source 0x14 (R343) or the cache line of source 0x04
(twice its number, and 1 more in the instruction cache; R329), and whether an injection alone explains it (R321, R347)
or coincides with it (R322). -/
structure Detection where
  source : Nat
  inst : Nat
  loc : Nat
  level : Nat
  detail : Nat
  jobs : List Nat
  unit : Nat
  cls14 : Nat
  inj : Bool
  coinc : Bool
  deriving DecidableEq, Repr

/-- The commands: one constructor per row of the table of operations and events, in the table's order. -/
inductive Instr where
  /-- POWER_ON (R370). -/
  | powerOn (feed : Fin 2)
  /-- RESET_N_ASSERT (R370). -/
  | resetNAssert (lowNs : Nat) (taken : Bool)
  /-- PWR_GOOD_CHANGE (R428). -/
  | pwrGoodChange (level : Bool)
  /-- ROM_SELFTEST (R428). -/
  | romSelftest (ok0 : Bool) (ok1 : Bool)
  /-- HUB_INIT (R428). -/
  | hubInit
  /-- IMAGE_A (R435). -/
  | imageA (readOk : Bool)
  /-- IMAGE_B (R436). -/
  | imageB (readOk : Bool)
  /-- TERIND_START (R428). -/
  | terindStart
  /-- DRAM_TRAIN (R429). -/
  | dramTrain (fails : List (Fin 4 × Fin 64))
  /-- SPARE_TEST (R171). -/
  | spareTest (fails : List (Fin 4 × Fin 64))
  /-- RECORDS (R182). -/
  | records
  /-- EXEC_LOAD (R428). -/
  | execLoad
  /-- HOST_READY (R431). -/
  | hostReady
  /-- MODULE_RESET (R418). -/
  | moduleReset
  /-- CMD_IDENTIFY (R418). -/
  | cmdIdentify (c : Cmd)
  /-- CMD_STATUS (R411). -/
  | cmdStatus (c : Cmd)
  /-- CMD_FAULT_READ (R418). -/
  | cmdFaultRead (c : Cmd)
  /-- CMD_FAULT_CLEAR (R356). -/
  | cmdFaultClear (c : Cmd) (same : List Detection)
  /-- CMD_PART_CONFIG (R31). -/
  | cmdPartConfig (c : Cmd)
  /-- CMD_PART_START (R41). -/
  | cmdPartStart (c : Cmd)
  /-- CMD_PART_MODE (R41). -/
  | cmdPartMode (c : Cmd)
  /-- ENTRY_SELF_TEST (R42). -/
  | entrySelfTest (p : Fin 4) (fails : List (Fin 48))
  /-- PART_TRANSITION_DONE (R45). -/
  | partTransitionDone (p : Fin 4)
  /-- CMD_TAKEOVER (R415). -/
  | cmdTakeover (c : Cmd)
  /-- CMD_JOB_SUBMIT (R419). -/
  | cmdJobSubmit (c : Cmd)
  /-- CMD_JOB_ABORT (R420). -/
  | cmdJobAbort (c : Cmd)
  /-- CMD_MEM_WRITE (R421). -/
  | cmdMemWrite (c : Cmd)
  /-- CMD_MEM_READ (R422). -/
  | cmdMemRead (c : Cmd)
  /-- CMD_MEM_FILL (R335). -/
  | cmdMemFill (c : Cmd)
  /-- FILL_COMPLETE (R335). -/
  | fillComplete (p : Fin 4)
  /-- CMD_RETIRE_PAGE (R186). -/
  | cmdRetirePage (c : Cmd)
  /-- RETIRE_PENDING_CLEAR (R187). -/
  | retirePendingClear (d : Fin 4) (page : Nat)
  /-- CMD_PC_SUBSTITUTE (R172). -/
  | cmdPcSubstitute (c : Cmd)
  /-- RES_SUB_START (R183). -/
  | resSubStart (d : Fin 4) (w : Word)
  /-- SUBST_COPY_GRANULE (R174). -/
  | substCopyGranule (d : Fin 4)
  /-- SUBST_SWAP (R177). -/
  | substSwap (d : Fin 4)
  /-- POISON_FILL_DONE (R179). -/
  | poisonFillDone (d : Fin 4)
  /-- CMD_MAP_READ (R529). -/
  | cmdMapRead (c : Cmd)
  /-- BIST_CORE_SELFTEST (R305). -/
  | bistCoreSelftest (c : Cmd) (fails : List (Fin 48 × Fin 3))
  /-- BIST_RAW_MACRO (R225). -/
  | bistRawMacro (c : Cmd) (busy : Bool)
  /-- BIST_REDUNDANCY_RUN (R320). -/
  | bistRedundancyRun (c : Cmd)
  /-- BIST_MEMORY_PATTERN (R418). -/
  | bistMemoryPattern (c : Cmd) (fails : List Nat)
  /-- CMD_INJECT (R319). -/
  | cmdInject (c : Cmd)
  /-- CHECKBIT_WINDOW_OPEN (R346). -/
  | checkbitWindowOpen (c : Cmd)
  /-- CHECKBIT_WINDOW_CLOSE (R348). -/
  | checkbitWindowClose (c : Cmd)
  /-- DEBUG_CLOSE (R461). -/
  | debugClose (c : Cmd)
  /-- DEBUG_PASSWORD (R458). -/
  | debugPassword (c : Cmd)
  /-- DEBUG_NONCE_REQUEST (R459). -/
  | debugNonceRequest (c : Cmd)
  /-- DEBUG_SIGNED_RESPONSE (R459). -/
  | debugSignedResponse (c : Cmd)
  /-- NONCE_EXPIRY (R459). -/
  | nonceExpiry (p : Fin 4)
  /-- LOCKOUT_END (R460). -/
  | lockoutEnd
  /-- CMD_POWER_STATE (R469). -/
  | cmdPowerState (c : Cmd)
  /-- POWER_TRANSITION_DONE (R470). -/
  | powerTransitionDone (fails : List (Fin 4 × Fin 64)) (spares : List (Fin 4 × Fin 64))
  /-- CMD_RESET (R418). -/
  | cmdReset (c : Cmd)
  /-- JOB_START (R50). -/
  | jobStart (p : Fin 4)
  /-- JOB_COMPLETE (R53). -/
  | jobComplete (handle : Nat)
  /-- COMPLETION_POST (R23). -/
  | completionPost (handle : Nat)
  /-- DISCARD_RESPONSE (R364). -/
  | discardResponse (handle : Nat)
  /-- CHAIN_LOAD_CALL (R104). -/
  | chainLoadCall (cl : Fin 48)
  /-- JOB_BARRIER_CALL (R85). -/
  | jobBarrierCall (cl : Fin 48)
  /-- SHORT_PAIR (R237). -/
  | shortPair (t : Tgt) (x : ShortOp) (y : ShortOp)
  /-- ADD (R246). -/
  | add (t : Tgt) (d : Reg) (a : Reg) (b : Reg)
  /-- ADC (R246). -/
  | adc (t : Tgt) (d : Reg) (a : Reg) (b : Reg)
  /-- SUB (R246). -/
  | sub (t : Tgt) (d : Reg) (a : Reg) (b : Reg)
  /-- SBC (R246). -/
  | sbc (t : Tgt) (d : Reg) (a : Reg) (b : Reg)
  /-- AND (R246). -/
  | and (t : Tgt) (d : Reg) (a : Reg) (b : Reg)
  /-- OR (R246). -/
  | or (t : Tgt) (d : Reg) (a : Reg) (b : Reg)
  /-- XOR (R246). -/
  | xor (t : Tgt) (d : Reg) (a : Reg) (b : Reg)
  /-- SHL (R246). -/
  | shl (t : Tgt) (d : Reg) (a : Reg) (b : Reg)
  /-- SHR (R246). -/
  | shr (t : Tgt) (d : Reg) (a : Reg) (b : Reg)
  /-- SAR (R246). -/
  | sar (t : Tgt) (d : Reg) (a : Reg) (b : Reg)
  /-- NEG (R255). -/
  | neg (t : Tgt) (d : Reg) (a : Reg)
  /-- NEGS (R255). -/
  | negs (t : Tgt) (d : Reg) (a : Reg)
  /-- MUL (R252). -/
  | mul (t : Tgt) (d : Reg) (a : Reg) (b : Reg)
  /-- MULH (R252). -/
  | mulh (t : Tgt) (d : Reg) (a : Reg) (b : Reg)
  /-- MULHU (R252). -/
  | mulhu (t : Tgt) (d : Reg) (a : Reg) (b : Reg)
  /-- DIV (R254). -/
  | div (t : Tgt) (d : Reg) (a : Reg) (b : Reg)
  /-- DIVU (R254). -/
  | divu (t : Tgt) (d : Reg) (a : Reg) (b : Reg)
  /-- REM (R254). -/
  | rem (t : Tgt) (d : Reg) (a : Reg) (b : Reg)
  /-- REMU (R254). -/
  | remu (t : Tgt) (d : Reg) (a : Reg) (b : Reg)
  /-- CMP (R246). -/
  | cmp (t : Tgt) (a : Reg) (b : Reg)
  /-- TST (R246). -/
  | tst (t : Tgt) (a : Reg) (b : Reg)
  /-- MIN (R246). -/
  | min (t : Tgt) (d : Reg) (a : Reg) (b : Reg)
  /-- MAX (R246). -/
  | max (t : Tgt) (d : Reg) (a : Reg) (b : Reg)
  /-- ADDI (R246). -/
  | addi (t : Tgt) (d : Reg) (a : Reg) (imm : BitVec 16)
  /-- ANDI (R246). -/
  | andi (t : Tgt) (d : Reg) (a : Reg) (imm : BitVec 16)
  /-- ORI (R246). -/
  | ori (t : Tgt) (d : Reg) (a : Reg) (imm : BitVec 16)
  /-- XORI (R246). -/
  | xori (t : Tgt) (d : Reg) (a : Reg) (imm : BitVec 16)
  /-- SHLI (R246). -/
  | shli (t : Tgt) (d : Reg) (a : Reg) (n : BitVec 6)
  /-- SHRI (R246). -/
  | shri (t : Tgt) (d : Reg) (a : Reg) (n : BitVec 6)
  /-- SARI (R246). -/
  | sari (t : Tgt) (d : Reg) (a : Reg) (n : BitVec 6)
  /-- CMPI (R246). -/
  | cmpi (t : Tgt) (a : Reg) (imm : BitVec 16)
  /-- MOVI (R246). -/
  | movi (t : Tgt) (d : Reg) (imm : BitVec 16)
  /-- MOVK (R246). -/
  | movk (t : Tgt) (d : Reg) (k : Fin 4) (imm : BitVec 16)
  /-- LDB (R232). -/
  | ldb (t : Tgt) (n : Fin 8) (a : Reg)
  /-- MFB (R232). -/
  | mfb (t : Tgt) (d : Reg) (n : Fin 8)
  /-- LD8 (R241). -/
  | ld8 (t : Tgt) (d : Reg) (m : MemOp)
  /-- LD8S (R241). -/
  | ld8s (t : Tgt) (d : Reg) (m : MemOp)
  /-- LD16 (R241). -/
  | ld16 (t : Tgt) (d : Reg) (m : MemOp)
  /-- LD16S (R241). -/
  | ld16s (t : Tgt) (d : Reg) (m : MemOp)
  /-- LD32 (R241). -/
  | ld32 (t : Tgt) (d : Reg) (m : MemOp)
  /-- LD32S (R241). -/
  | ld32s (t : Tgt) (d : Reg) (m : MemOp)
  /-- LD64 (R241). -/
  | ld64 (t : Tgt) (d : Reg) (m : MemOp)
  /-- ST8 (R271). -/
  | st8 (t : Tgt) (d : Reg) (m : MemOp)
  /-- ST16 (R271). -/
  | st16 (t : Tgt) (d : Reg) (m : MemOp)
  /-- ST32 (R271). -/
  | st32 (t : Tgt) (d : Reg) (m : MemOp)
  /-- ST64 (R271). -/
  | st64 (t : Tgt) (d : Reg) (m : MemOp)
  /-- LDU64 (R243). -/
  | ldu64 (t : Tgt) (d : Reg) (a : Reg) (imm : BitVec 16)
  /-- DINV (R244). -/
  | dinv (t : Tgt) (a : Reg) (imm : BitVec 16)
  /-- DINVA (R244). -/
  | dinva (t : Tgt)
  /-- PUSH (R250). -/
  | push (t : Tgt) (d : Reg)
  /-- POP (R250). -/
  | pop (t : Tgt) (d : Reg)
  /-- B_CC (R247). -/
  | bCc (t : Tgt) (cc : BitVec 4) (disp : BitVec 20)
  /-- CALL (R251). -/
  | call (t : Tgt) (disp : BitVec 24)
  /-- CALLR (R251). -/
  | callr (t : Tgt) (a : Reg)
  /-- RET (R276). -/
  | ret (t : Tgt)
  /-- JMPR (R240). -/
  | jmpr (t : Tgt) (a : Reg)
  /-- STM (R283). -/
  | stm (t : Tgt) (a : Reg) (mask : BitVec 16)
  /-- LDM (R284). -/
  | ldm (t : Tgt) (a : Reg) (mask : BitVec 16)
  /-- SAVEH (R286). -/
  | saveh (t : Tgt) (a : Reg) (h : Fin 2)
  /-- LOADH (R286). -/
  | loadh (t : Tgt) (h : Fin 2)
  /-- MFS (R234). -/
  | mfs (t : Tgt) (d : Reg) (sp : BitVec 12)
  /-- MTS (R234). -/
  | mts (t : Tgt) (sp : BitVec 12) (a : Reg)
  /-- MTS_RSP (R275). -/
  | mtsRsp (t : Tgt) (a : Reg)
  /-- CTX_CREATE (R278). -/
  | ctxCreate (t : Tgt) (a : Reg)
  /-- CTX_DESTROY (R278). -/
  | ctxDestroy (t : Tgt) (a : Reg)
  /-- SVC (R265). -/
  | svc (t : Tgt) (imm : BitVec 16)
  /-- RFE (R267). -/
  | rfe (t : Tgt)
  /-- CRIT (R269). -/
  | crit (t : Tgt) (imm : BitVec 16)
  /-- CRIT_END (R269). -/
  | critEnd (t : Tgt)
  /-- IFLUSH (R245). -/
  | iflush (t : Tgt)
  /-- VLD (R256). -/
  | vld (t : Tgt) (v : Reg) (a : Reg) (sz : BitVec 2) (disp : BitVec 14)
  /-- VST (R256). -/
  | vst (t : Tgt) (v : Reg) (a : Reg) (sz : BitVec 2) (disp : BitVec 14)
  /-- VALU (R256). -/
  | valu (t : Tgt) (vd : Reg) (va : Reg) (vb : Reg) (sz : BitVec 2) (f : BitVec 4)
  /-- VINS (R256). -/
  | vins (t : Tgt) (v : Reg) (sz : BitVec 2) (j : BitVec 3) (a : Reg)
  /-- VEXT (R256). -/
  | vext (t : Tgt) (d : Reg) (v : Reg) (sz : BitVec 2) (j : BitVec 3)
  /-- S_ISSUE (R54). -/
  | sIssue (t : Tgt) (d : Reg) (q : Fin 4)
  /-- S_WAIT (R83). -/
  | sWait (t : Tgt) (d : Reg) (a : Reg)
  /-- VBAR (R84). -/
  | vbar (t : Tgt) (d : Reg)
  /-- S_FENCE (R82). -/
  | sFence (t : Tgt)
  /-- S_FLAGS (R144). -/
  | sFlags (t : Tgt) (d : Reg) (a : Reg)
  /-- ILLEGAL_INSTRUCTION (R236). -/
  | illegalInstruction (t : Tgt) (w : BitVec 32)
  /-- INTERRUPT_TAKE (R268). -/
  | interruptTake (t : Tgt)
  /-- CRIT_WINDOW_EXPIRY (R270). -/
  | critWindowExpiry (t : Tgt)
  /-- STORE_RESPONSE (R271). -/
  | storeResponse (t : Tgt) (lost : BitVec 2)
  /-- DOORBELL (R263). -/
  | doorbell (t : Tgt)
  /-- CONTEXT_SPILL_DONE (R279). -/
  | contextSpillDone (t : Tgt)
  /-- CONTEXT_LOAD_DONE (R280). -/
  | contextLoadDone (t : Tgt)
  /-- OWL_DECISION (R298). -/
  | owlDecision (t : Tgt) (upset : List (Fin 3 × Word)) (rails : Rails)
  /-- REQUEST_COMPARE (R293). -/
  | requestCompare (t : Tgt) (reqs : List (Fin 3 × Request))
  /-- DEN_COPY_DONE (R300). -/
  | denCopyDone (cl : Fin 48)
  /-- REJOIN (R301). -/
  | rejoin (cl : Fin 48)
  /-- CORE_SELFTEST_DONE (R305). -/
  | coreSelftestDone (cl : Fin 48) (fails : List (Fin 3))
  /-- EXECUTIVE_RESTART (R305). -/
  | executiveRestart (cl : Fin 48)
  /-- STREAM_START (R78). -/
  | streamStart (cl : Fin 48) (slot : Fin 64)
  /-- BLOCK_TAKE (R115). -/
  | blockTake (cl : Fin 48) (slot : Fin 64) (block : Nat)
  /-- TILE_WINDOW_CLOSE (R310). -/
  | tileWindowClose (cl : Fin 48) (tile : Fin 16)
  /-- PAIR_DECISION (R312). -/
  | pairDecision (cl : Fin 48) (pair : Fin 8) (upset : Word) (rails : Rails)
  /-- STREAM_RETIRE (R73). -/
  | streamRetire (cl : Fin 48) (slot : Fin 64) (upset : Option (Fin 16 × BitVec 7))
  /-- STREAM_FAULT (R87). -/
  | streamFault (cl : Fin 48) (slot : Fin 64)
  /-- AGU_SFLT_CLEAR (R90). -/
  | aguSfltClear (cl : Fin 48)
  /-- MATRIX_PIECE_GRANT (R194). -/
  | matrixPieceGrant (bursts : List Piece) (tgt : MatrixPort)
  /-- PIECE_RESPONSE (R196). -/
  | pieceResponse (die : Fin 5) (port : Nat) (id : Nat)
  /-- LINK_CREDIT_RETURN (R201). -/
  | linkCreditReturn (die : Fin 5) (endpoint : Fin 4) (ch : Fin 3)
  /-- HOP_REPLAY (R327). -/
  | hopReplay (hop : Hop) (ok : Bool)
  /-- MEM_CTRL_READ (R165). -/
  | memCtrlRead (d : Fin 4) (pch : Fin 64) (q : Nat) (master : Nat) (job : Option Nat)
  /-- MEM_CTRL_WRITE (R156). -/
  | memCtrlWrite (d : Fin 4) (g : Nat) (words : List (Fin 8 × Word × BitVec 8)) (master : Nat) (job : Option Nat)
  /-- SCRATCH_ACCESS (R215): the accesses of one cycle to the word slot that holds `off`. -/
  | scratchAccess (d : Fin 5) (off : Nat) (acc : List SlotAccess)
  /-- DRAM_REFRESH (R166). -/
  | dramRefresh (s : Fin 8)
  /-- STACK_TEMP_READ (R167). -/
  | stackTempRead (s : Fin 8) (temp : Int)
  /-- SCRUB_READ (R337). -/
  | scrubRead (d : Fin 4) (newer : List SlotAccess) (again : Fin 3)
  /-- LAP_OVERDUE (R338). -/
  | lapOverdue (d : Fin 4)
  /-- RAW_MACRO_GO (R225). -/
  | rawMacroGo (d : Fin 4) (w : Word) (busy : Bool)
  /-- SECURE_WIPE (R222). -/
  | secureWipe (cause : Fin 3)
  /-- SECURE_WIPE_DONE (R223). -/
  | secureWipeDone
  /-- DMA_START (R487). -/
  | dmaStart (ch : Fin 8) (w : Word)
  /-- DMA_TRANSFER_DONE (R487). -/
  | dmaTransferDone (ch : Fin 8)
  /-- FOX_HOLD_CLEAR (R488). -/
  | foxHoldClear (cl : Fin 48) (w : Word)
  /-- FOX_HOLD_SET (R488). -/
  | foxHoldSet (cl : Fin 48) (w : Word)
  /-- FAULT_DETECTION (R354). -/
  | faultDetection (ds : List Detection)
  /-- HALT_LOG_COPY (R369). -/
  | haltLogCopy
  /-- QUARANTINE_END (R366). -/
  | quarantineEnd (b : Nat)
  /-- BADGER_RESTART (R323). -/
  | badgerRestart (ok0 : Bool) (ok1 : Bool)
  /-- VIEW_AUDIT (R371). -/
  | viewAudit
  /-- EVENT_RAISE (R441). -/
  | eventRaise (k : Fin 288) (par : Nat)
  /-- EVENT_SCAN (R442). -/
  | eventScan
  /-- EVR_SWSET (R445). -/
  | evrSwset (w : Word)
  /-- MBX_CMD_DATA_WRITE (R405). -/
  | mbxCmdDataWrite (ch : Fin 2) (w : Word)
  /-- MBX_RESYNC (R406). -/
  | mbxResync (ch : Fin 2) (w : Word)
  /-- MBX_RSP_DATA_READ (R409). -/
  | mbxRspDataRead (ch : Fin 2)
  /-- MBX_RSP_BACK (R410). -/
  | mbxRspBack (ch : Fin 2) (w : Word)
  /-- MBX_EVT_DATA_READ (R423). -/
  | mbxEvtDataRead (ch : Fin 2)
  /-- REGISTER_WRITE (R4). -/
  | registerWrite (who : Master) (addr : Nat) (w : RegWord)
  /-- FRAME_RECEIVE (R379). -/
  | frameReceive (p : Fin 4) (f : Frame)
  /-- LINK (R382). -/
  | link (p : Fin 4) (f : Frame)
  /-- LINK_FRAME_SEND (R382). -/
  | linkFrameSend (p : Fin 4)
  /-- RETRANSMIT_TIMEOUT (R381). -/
  | retransmitTimeout (p : Fin 4)
  /-- FRAME_TRANSMIT (R383). -/
  | frameTransmit (p : Fin 4)
  /-- ALIGNMENT_BLOCK (R376). -/
  | alignmentBlock (p : Fin 4)
  /-- FRAME_RELAY (R386). -/
  | frameRelay (p : Fin 4) (f : Frame)
  /-- RD (R391). -/
  | rd (ch : Fin 2) (f : Frame)
  /-- WR (R391). -/
  | wr (ch : Fin 2) (f : Frame)
  /-- RW (R394). -/
  | rw (ch : Fin 2) (f : Frame)
  /-- RR (R394). -/
  | rr (ch : Fin 2) (f : Frame)
  /-- SYNC (R393). -/
  | sync (ch : Fin 2) (f : Frame)
  /-- ENUM (R388). -/
  | enum (ch : Fin 2) (f : Frame)
  /-- UNASSIGN (R390). -/
  | unassign (ch : Fin 2) (f : Frame)
  /-- NOTIFY_SEND (R425). -/
  | notifySend (ch : Fin 2)
  /-- PORT_TRAINING (R396). -/
  | portTraining (p : Fin 4) (t : TrainStep)
  /-- PORT_RETRAIN (R397). -/
  | portRetrain (p : Fin 4) (lock : Bool)
  /-- RETRY_BUFFER_DISCARD (R397). -/
  | retryBufferDiscard (p : Fin 4)
  /-- HB_IN_BEAT (R507). -/
  | hbInBeat (level : Bool)
  /-- HEARTBEAT_LOSS (R507). -/
  | heartbeatLoss
  /-- FEED_FAULT (R466). -/
  | feedFault (feed : Fin 2) (ok : Bool) (volts : Nat)
  /-- POWER_LOSS (R466). -/
  | powerLoss
  /-- DIE_TEMP_READ (R475). -/
  | dieTempRead (d : Fin 4) (temp : Int) (watts : Nat)
  /-- PROTECTIVE_CLOCK_STEP (R476). -/
  | protectiveClockStep (cl : Fin 48) (down : Bool)
  /-- BOOST_STEP (R475). -/
  | boostStep (cl : Fin 48) (up : Bool)
  /-- INPUT_POWER_LIMIT (R475). -/
  | inputPowerLimit (watts : Nat)
  /-- LID_FILTER_EXPIRY (R451). -/
  | lidFilterExpiry
  /-- LC_TRANSITION (R450). -/
  | lcTransition
  /-- MIN_SVN_RAISE (R450). -/
  | minSvnRaise
  /-- DEBUG_HALT (R455). -/
  | debugHalt (cl : Fin 48)
  /-- DEBUG_STEP (R455). -/
  | debugStep (cl : Fin 48)
  /-- DEBUG_RESUME (R455). -/
  | debugResume (cl : Fin 48)
  /-- DEBUG_HALT_TIMEOUT (R455). -/
  | debugHaltTimeout (cl : Fin 48)
  /-- EXTEST (R456). -/
  | extest (drive : List Bool)
  /-- SERVICE_STATUS (R511). -/
  | serviceStatus (pec : Bool)
  /-- SERVICE_SELECT (R511). -/
  | serviceSelect (pec : Bool) (w : Word)
  /-- SERVICE_FAULT (R511). -/
  | serviceFault (pec : Bool)
  /-- SERVICE_IDENTIFY (R511). -/
  | serviceIdentify (pec : Bool)
  /-- IMG_OPEN (R512). -/
  | imgOpen (pec : Bool) (w : Word)
  /-- IMG_DATA (R512). -/
  | imgData (pec : Bool) (off : Nat) (bytes : List Byte)
  /-- IMG_CLOSE (R511). -/
  | imgClose (pec : Bool) (len : Nat)
  /-- IMG_STAT (R511). -/
  | imgStat (pec : Bool)
  /-- LC_REQUEST (R449). -/
  | lcRequest (pec : Bool) (bytes : List Byte)
  /-- LC_RESULT (R511). -/
  | lcResult (pec : Bool)
  /-- ALERT_RESPONSE_READ (R510). -/
  | alertResponseRead
  /-- BUS_ERROR_FETCH (R263). -/
  | busErrorFetch (t : Tgt) (resp : Fin 3)
  /-- TAMPER_INPUT_CHANGE (R451). -/
  | tamperInputChange (closed : Bool) (meshOpen : Bool) (meshShort : Bool)
  /-- SENSOR_THRESHOLD_CROSSING (R493). -/
  | sensorThresholdCrossing (k : Fin 288) (val : Nat)
  /-- LOSS_OF_TRAINING (R357). -/
  | lossOfTraining (die : Fin 5) (endpoint : Fin 4) (ch : Fin 3) (how : Fin 3)
  /-- CHANNEL_RETRAINING (R491). -/
  | channelRetraining (d : Fin 4) (pch : Fin 64) (persists : Bool)
  /-- LNK_CTRL_DOWN_EN_WRITE (R401). -/
  | lnkCtrlDownEnWrite (p : Fin 4) (en : Bool)
  /-- IMAGE_CHECK_DONE (R511). -/
  | imageCheckDone (readOk : Bool)
  /-- DEBUG_PORT_ACCESS (R454). -/
  | debugPortAccess (p : Fin 4) (write : Bool) (addr : Nat) (w : Word)
  deriving DecidableEq, Repr

end Sys2Proof
end

