-- ==== Sys2Proof/WellFormed.lean ====
section
/-! DEFINITION. WellFormed.lean: the operand values that the manual's words, frames and maps can carry. An operand whose
type already has exactly the manual's range needs no check here. -/

namespace Sys2Proof

/-- A command's header fields fit Table 15.2 and its LEN is below 65,536. -/
def Cmd.wf (c : Cmd) : Bool :=
  decide (c.chain < 2) && decide (c.op < 256) && decide (c.part < 8) && decide (c.tag < 65536)
    && decide (c.cseq < 65536) && decide (c.params.length < 65536)

/-- A request's fields: a 48-bit address, a size of 1, 2, 4 or 8 bytes, data of that size (R293, R241). -/
def Request.wf (r : Request) : Bool :=
  decide (r.addr < 2 ^ 48) && [1, 2, 4, 8].contains r.size && decide (r.data < 2 ^ (8 * r.size))

/-- Frame fields fit Table 14.2. -/
def Frame.wf (f : Frame) : Bool :=
  decide (f.typ < 16) && decide (f.dst < 64) && decide (f.src < 64) && decide (f.tag < 256)
    && decide (f.seq < 4096) && decide (f.ack < 4096) && decide (f.data.length < 128)

/-- A burst: a master of Table 7.1 or R192, a 7-bit ID (R198), and up to 4,096 bytes within a 4,096-byte boundary (R193). -/
def Piece.wf (p : Piece) : Bool :=
  let n := if p.write then p.words.length else p.nwords
  (if p.die = 4 then decide (p.port ≤ 8) else decide (p.die < 4) && (decide (p.port < 0x6C) || p.port == 0x7C))
    && decide (p.id < 128) && decide (p.addr < 2 ^ 48) && decide (1 ≤ n) && decide (p.addr / 8 % 512 + n ≤ 512)
    && (p.write || p.words.isEmpty)

/-- An access of a scratch word slot names a master port number. -/
def SlotAccess.wf (a : SlotAccess) : Bool := decide (a.master < 256)

/-- A hop's numbers fit Table 13.4. -/
def Hop.wf (h : Hop) : Bool := decide (h.code < 32) && decide (h.die < 5) && decide (h.unit < 16) && decide (h.ch < 4)

/-- A location code of Table 0.5 at a level (R6 to R8): a die and a unit that the table lists, ones below the level, and a pseudo-channel that
lies in the stack that UNIT4 names. -/
def locWf (level loc : Nat) : Bool :=
  let die := loc / 2 ^ 28
  let u4 := loc / 2 ^ 24 % 16
  let u3 := loc / 2 ^ 20 % 16
  let deep := decide (level ≤ 3)
  let unit := decide (5 ≤ level) ||
    (if die < 4 then u4 < 0xF || !deep || u3 < 6
      else if die = 0xE then u4 < 0xA || (u4 == 0xA && (!deep || u3 < 5))
      else u4 == 0xF || (decide (u4 < 3) && (u4 != 1 || !deep || u3 < 3)))
  let stack := !deep || 4 ≤ die || (u4 != 0xC || u3 < 8) && (u4 != 0xD || 8 ≤ u3)
  decide (1 ≤ level) && decide (level ≤ 7) && (die < 4 || die == 0xE || die == 0xF) && unit && stack
    && Machine.locAt level loc == loc

/-- The source codes of Table 13.7; 0 stands for a disagreeing copy of the module inst's registers (R368). -/
def sources : List Nat :=
  [0x00, 0x01, 0x02, 0x03, 0x04, 0x10, 0x11, 0x12, 0x13, 0x14, 0x18, 0x20, 0x21, 0x22, 0x23, 0x24, 0x25, 0x26, 0x27, 0x28, 0x30, 0x31, 0x32,
    0x38, 0x39, 0x40, 0x41, 0x42, 0x48, 0x49, 0x50, 0x51, 0x60, 0x61, 0x62, 0x63, 0x64, 0x70, 0x71, 0x72]

/-- A detection names a source of Table 13.7, one of the 91 fault status insts (Table 13.1), and a location at its level. -/
def Detection.wf (d : Detection) : Bool :=
  sources.contains d.source && decide (d.inst < 91) && decide (d.loc < 2 ^ 32) && locWf d.level d.loc

/-- A flash data chunk: at most 32 bytes of a service-port write. -/
def bytesWf (l : List (BitVec 8)) : Bool := decide (l.length ≤ 255)

/-- A command whose operands the manual can carry. -/
def Instr.wf (i : Instr) : Bool :=
  match i with
  | .powerOn _ => true
  | .resetNAssert _ _ => true
  | .pwrGoodChange _ => true
  | .romSelftest _ _ => true
  | .hubInit => true
  | .imageA _ => true
  | .imageB _ => true
  | .terindStart => true
  | .dramTrain _ => true
  | .spareTest _ => true
  | .records => true
  | .execLoad => true
  | .hostReady => true
  | .moduleReset => true
  | .cmdIdentify c => c.wf
  | .cmdStatus c => c.wf
  | .cmdFaultRead c => c.wf
  | .cmdFaultClear c same => c.wf && same.all Detection.wf
  | .cmdPartConfig c => c.wf
  | .cmdPartStart c => c.wf
  | .cmdPartMode c => c.wf
  | .entrySelfTest _ _ => true
  | .partTransitionDone _ => true
  | .cmdTakeover c => c.wf
  | .cmdJobSubmit c => c.wf
  | .cmdJobAbort c => c.wf
  | .cmdMemWrite c => c.wf
  | .cmdMemRead c => c.wf
  | .cmdMemFill c => c.wf
  | .fillComplete _ => true
  | .cmdRetirePage c => c.wf
  | .retirePendingClear _ _ => true
  | .cmdPcSubstitute c => c.wf
  | .resSubStart _ _ => true
  | .substCopyGranule _ => true
  | .substSwap _ => true
  | .poisonFillDone _ => true
  | .cmdMapRead c => c.wf
  | .bistCoreSelftest c _ => c.wf
  | .bistRawMacro c _ => c.wf
  | .bistRedundancyRun c => c.wf
  | .bistMemoryPattern c _ => c.wf
  | .cmdInject c => c.wf
  | .checkbitWindowOpen c => c.wf
  | .checkbitWindowClose c => c.wf
  | .debugClose c => c.wf
  | .debugPassword c => c.wf
  | .debugNonceRequest c => c.wf
  | .debugSignedResponse c => c.wf
  | .nonceExpiry _ => true
  | .lockoutEnd => true
  | .cmdPowerState c => c.wf
  | .powerTransitionDone _ _ => true
  | .cmdReset c => c.wf
  | .jobStart _ => true
  | .jobComplete _ => true
  | .completionPost _ => true
  | .discardResponse _ => true
  | .chainLoadCall _ => true
  | .jobBarrierCall _ => true
  | .shortPair _ _ _ => true
  | .add _ _ _ _ => true
  | .adc _ _ _ _ => true
  | .sub _ _ _ _ => true
  | .sbc _ _ _ _ => true
  | .and _ _ _ _ => true
  | .or _ _ _ _ => true
  | .xor _ _ _ _ => true
  | .shl _ _ _ _ => true
  | .shr _ _ _ _ => true
  | .sar _ _ _ _ => true
  | .neg _ _ _ => true
  | .negs _ _ _ => true
  | .mul _ _ _ _ => true
  | .mulh _ _ _ _ => true
  | .mulhu _ _ _ _ => true
  | .div _ _ _ _ => true
  | .divu _ _ _ _ => true
  | .rem _ _ _ _ => true
  | .remu _ _ _ _ => true
  | .cmp _ _ _ => true
  | .tst _ _ _ => true
  | .min _ _ _ _ => true
  | .max _ _ _ _ => true
  | .addi _ _ _ _ => true
  | .andi _ _ _ _ => true
  | .ori _ _ _ _ => true
  | .xori _ _ _ _ => true
  | .shli _ _ _ _ => true
  | .shri _ _ _ _ => true
  | .sari _ _ _ _ => true
  | .cmpi _ _ _ => true
  | .movi _ _ _ => true
  | .movk _ _ _ _ => true
  | .ldb _ _ _ => true
  | .mfb _ _ _ => true
  | .ld8 _ _ _ => true
  | .ld8s _ _ _ => true
  | .ld16 _ _ _ => true
  | .ld16s _ _ _ => true
  | .ld32 _ _ _ => true
  | .ld32s _ _ _ => true
  | .ld64 _ _ _ => true
  | .st8 _ _ _ => true
  | .st16 _ _ _ => true
  | .st32 _ _ _ => true
  | .st64 _ _ _ => true
  | .ldu64 _ _ _ _ => true
  | .dinv _ _ _ => true
  | .dinva _ => true
  | .push _ _ => true
  | .pop _ _ => true
  | .bCc _ _ _ => true
  | .call _ _ => true
  | .callr _ _ => true
  | .ret _ => true
  | .jmpr _ _ => true
  | .stm _ _ _ => true
  | .ldm _ _ _ => true
  | .saveh _ _ _ => true
  | .loadh _ _ => true
  | .mfs _ _ _ => true
  | .mts _ _ _ => true
  | .mtsRsp _ _ => true
  | .ctxCreate _ _ => true
  | .ctxDestroy _ _ => true
  | .svc _ _ => true
  | .rfe _ => true
  | .crit _ _ => true
  | .critEnd _ => true
  | .iflush _ => true
  | .vld _ _ _ _ _ => true
  | .vst _ _ _ _ _ => true
  | .valu _ _ _ _ _ _ => true
  | .vins _ _ _ _ _ => true
  | .vext _ _ _ _ _ => true
  | .sIssue _ _ _ => true
  | .sWait _ _ _ => true
  | .vbar _ _ => true
  | .sFence _ => true
  | .sFlags _ _ _ => true
  | .illegalInstruction _ _ => true
  | .interruptTake _ => true
  | .critWindowExpiry _ => true
  | .storeResponse _ _ => true
  | .doorbell _ => true
  | .contextSpillDone _ => true
  | .contextLoadDone _ => true
  | .owlDecision _ _ _ => true
  | .requestCompare _ reqs => (reqs.all fun r => r.2.wf)
  | .denCopyDone _ => true
  | .rejoin _ => true
  | .coreSelftestDone _ _ => true
  | .executiveRestart _ => true
  | .streamStart _ _ => true
  | .blockTake _ _ _ => true
  | .tileWindowClose _ _ => true
  | .pairDecision _ _ _ _ => true
  | .streamRetire _ _ _ => true
  | .streamFault _ _ => true
  | .aguSfltClear _ => true
  | .matrixPieceGrant bursts _ => bursts.all Piece.wf
  | .pieceResponse _ _ _ => true
  | .linkCreditReturn _ _ _ => true
  | .hopReplay hop _ => hop.wf
  | .memCtrlRead _ _ _ _ _ => true
  | .memCtrlWrite _ _ _ _ _ => true
  | .scratchAccess d off acc => acc.all fun a => a.wf && decide (a.off < if d.val < 4 then 0x06000000 else 0x01000000)
      && Machine.slotNo d.val a.off == Machine.slotNo d.val off
  | .dramRefresh _ => true
  | .stackTempRead _ _ => true
  | .scrubRead _ newer _ => newer.all fun a => a.wf && a.write.isSome
  | .lapOverdue _ => true
  | .rawMacroGo _ _ _ => true
  | .secureWipe _ => true
  | .secureWipeDone => true
  | .dmaStart _ _ => true
  | .dmaTransferDone _ => true
  | .foxHoldClear _ _ => true
  | .foxHoldSet _ _ => true
  | .faultDetection ds => ds.all Detection.wf
  | .haltLogCopy => true
  | .quarantineEnd _ => true
  | .badgerRestart _ _ => true
  | .viewAudit => true
  | .eventRaise _ _ => true
  | .eventScan => true
  | .evrSwset _ => true
  | .mbxCmdDataWrite _ _ => true
  | .mbxResync _ _ => true
  | .mbxRspDataRead _ => true
  | .mbxRspBack _ _ => true
  | .mbxEvtDataRead _ => true
  | .registerWrite _ _ _ => true
  | .frameReceive _ f => f.wf
  | .link _ f => f.wf
  | .linkFrameSend _ => true
  | .retransmitTimeout _ => true
  | .frameTransmit _ => true
  | .alignmentBlock _ => true
  | .frameRelay _ f => f.wf
  | .rd _ f => f.wf
  | .wr _ f => f.wf
  | .rw _ f => f.wf
  | .rr _ f => f.wf
  | .sync _ f => f.wf
  | .enum _ f => f.wf
  | .unassign _ f => f.wf
  | .notifySend _ => true
  | .portTraining _ _ => true
  | .portRetrain _ _ => true
  | .retryBufferDiscard _ => true
  | .hbInBeat _ => true
  | .heartbeatLoss => true
  | .feedFault _ _ _ => true
  | .powerLoss => true
  | .dieTempRead _ _ _ => true
  | .protectiveClockStep _ _ => true
  | .boostStep _ _ => true
  | .inputPowerLimit _ => true
  | .lidFilterExpiry => true
  | .lcTransition => true
  | .minSvnRaise => true
  | .debugHalt _ => true
  | .debugStep _ => true
  | .debugResume _ => true
  | .debugHaltTimeout _ => true
  | .extest _ => true
  | .serviceStatus _ => true
  | .serviceSelect _ _ => true
  | .serviceFault _ => true
  | .serviceIdentify _ => true
  | .imgOpen _ _ => true
  | .imgData _ _ bytes => bytesWf bytes
  | .imgClose _ _ => true
  | .imgStat _ => true
  | .lcRequest _ bytes => bytesWf bytes
  | .lcResult _ => true
  | .alertResponseRead => true
  | .busErrorFetch _ _ => true
  | .tamperInputChange _ _ _ => true
  | .sensorThresholdCrossing _ _ => true
  | .lossOfTraining _ _ _ _ => true
  | .channelRetraining _ _ _ => true
  | .lnkCtrlDownEnWrite _ _ => true
  | .imageCheckDone _ => true
  | .debugPortAccess _ _ _ _ => true

end Sys2Proof
end

