-- ==== Sys2Proof/Decode.lean ====
section
/-! DEFINITION. Decode.lean: what the table's bit columns spell. No row of the table of operations and events gives bits
(its rows are operations and events, with empty field lists), so no word spells a command. -/

namespace Sys2Proof

/-- The command that a word spells by the table's bits: none, because no row of the table has bits. -/
def decodeTableWord (_nbits _w : Nat) : Option Instr := none

end Sys2Proof
end

