-- ==== Sys2Proof/Config.lean ====
section
/-! DEFINITION. Config.lean: the values that the manual leaves open. Each is an opaque constant: no proof can see what it
is. Those that are asked for more than once take the number of the asking (Chip.freeCtr). -/

namespace Sys2Proof

/-- Data that the manual calls undefined or does not state: a word never written (R334, R422), a poisoned read (R328),
a raw-window read under collision (R224, R226). -/
opaque Config.freeWord : Nat → Word

/-- An open yes or no: whether a poisoned write was performed (R328), whether a cache line was evicted (R243),
whether a short low of RESET_N resets (R504). -/
opaque Config.freeBool : Nat → Bool

/-- A free index. -/
opaque Config.freeNat : Nat → Nat

/-- The 256-bit nonce that the random source draws (R459). -/
opaque Config.nonce : Nat → BitVec 256

/-- The scrambler of a port's lane at a time (R375): how many idle blocks the lane has carried is not stated. -/
opaque Config.idleScrambler : Nat → Nat → Nat → BitVec 58

/-- What a chain node gives that breaks R102 (hardware checks VALID and TYPES alone): an OP or a source that Table 4.3 or 4.4 does not list. -/
opaque Config.openNode : List Nat → Nat

/-- A word that hardware stores into a hardware-only Den area (R274, R276, R279), whose layout the manual does not give: a function of
what is spilled and of the word's number. -/
opaque Config.hwArea : List Nat → Nat → Word

/-- The Fox executive image and its entry address lie in the image set; the address at which Badger starts the
executive (R488) is the image's own and is not stated. -/
opaque Config.execEntry : Nat

/-- The offset in hub SRAM at which the Terind image starts to run (R427, R428): the image's entry point is not stated. -/
opaque Config.terindEntry : Nat

/-- What the Fox executive writes into a core's Den before the core's first use of it (R334): core and Den word. -/
opaque Config.denImage : Nat → Nat → Word

/-- The word of each secure region at which Terind stores the measurement of the executive image (R428): not stated. -/
opaque Config.measureAt : Nat

/-- A byte of the serial flash that nothing has written since manufacture or since the erasure of its image set
(R433, R511): neither the contents as delivered nor the erased value is stated. -/
opaque Config.flashByte : Nat → BitVec 8

/-- A life-cycle request (R449, R450): the transition number (0 for a raise of MIN_SVN alone), the fields to be burned, the
public keys supplied with it, and the signatures. -/
structure LcReq where
  number : Nat
  ownerHash : Nat
  ownerPwd : Nat
  minSvn : Nat
  ownerKey : Option (Nat × Nat)
  vendorKey : Option (Nat × Nat)
  ownerSig : Option (Nat × Nat)
  vendorSig : Option (Nat × Nat)
  deriving DecidableEq, Repr, Inhabited

/-- The request that the bytes of a life-cycle request spell: the manual names its parts and does not state their layout. -/
opaque Config.lcParse : List (BitVec 8) → LcReq

end Sys2Proof
end

