-- ==== Sys2Proof/Machine/Flags.lean ====
section
/-! DEFINITION. Machine/Flags.lean: FLAGS (Table 9.3), the flag rules of Table 9.7, R249 and R255, and the branch
conditions of Table 9.8. -/

namespace Sys2Proof.Machine

/-- FLAGS of one context bank (Table 9.3). -/
structure Flags where
  n : Bool := false
  z : Bool := false
  c : Bool := false
  v : Bool := false
  deriving DecidableEq, Repr

/-- FLAGS as the register reads: N Z C V in [3:0]. -/
def flagsNat (f : Flags) : Nat := b2n f.n * 8 + b2n f.z * 4 + b2n f.c * 2 + b2n f.v

/-- FLAGS from bits [3:0] of a word. -/
def flagsOf (w : Nat) : Flags := ⟨bit w 3, bit w 2, bit w 1, bit w 0⟩

/-- Bit 63 of a word. -/
def neg64 (w : Word) : Bool := bit w.toNat 63

/-- N and Z from a result, C and V given. -/
def flagsNZ (r : Word) (c v : Bool) : Flags := ⟨neg64 r, r == 0#64, c, v⟩

/-- The most negative 64-bit integer. -/
def minInt64 : Word := 0x8000000000000000#64

/-- The most positive 64-bit integer. -/
def maxInt64 : Word := 0x7FFFFFFFFFFFFFFF#64

/-- Addition with carry in: result and N Z C V (R246: C is the carry out of bit 63). -/
def addFlags (a b : Word) (cin : Nat) : Word × Flags :=
  let r := wNat (a.toNat + b.toNat + cin)
  let s := a.toInt + b.toInt + cin
  (r, flagsNZ r (decide (2 ^ 64 ≤ a.toNat + b.toNat + cin)) (decide (r.toInt ≠ s)))

/-- Subtraction with borrow: result and N Z C V (R246: C is 1 when there is no borrow). -/
def subFlags (a b : Word) (bin : Nat) : Word × Flags :=
  let s := a.toInt - b.toInt - bin
  let r := wInt s
  (r, flagsNZ r (decide (b.toNat + bin ≤ a.toNat)) (decide (r.toInt ≠ s)))

/-- Bitwise results: N Z, V 0, C unchanged (Table 9.7, R249). -/
def logicFlags (f : Flags) (r : Word) : Word × Flags := (r, flagsNZ r f.c false)

/-- Shifts, minimum and maximum: N Z, C and V unchanged (R249). -/
def keepCV (f : Flags) (r : Word) : Word × Flags := (r, flagsNZ r f.c f.v)

/-- Left shift; a count of 64 or more gives 0 (Table 9.7). -/
def shl64 (a : Word) (n : Nat) : Word := if 64 ≤ n then 0#64 else a <<< n

/-- Logical right shift; a count of 64 or more gives 0. -/
def shr64 (a : Word) (n : Nat) : Word := if 64 ≤ n then 0#64 else a >>> n

/-- Arithmetic right shift; a count of 64 or more gives the sign fill. -/
def sar64 (a : Word) (n : Nat) : Word := a.sshiftRight (if 64 ≤ n then 63 else n)

/-- NEG: minus Ga modulo 2^64, V 1 for MIN (R255 and Table 9.7). -/
def negFlags (f : Flags) (a : Word) : Word × Flags :=
  let r := wInt (-a.toInt)
  (r, flagsNZ r f.c (a == minInt64))

/-- NEGS: as NEG, but MIN gives MAX. -/
def negsFlags (f : Flags) (a : Word) : Word × Flags :=
  let r := if a = minInt64 then maxInt64 else wInt (-a.toInt)
  (r, flagsNZ r f.c (a == minInt64))

/-- MUL: the low 64 bits, V when the signed product lies outside INT64. -/
def mulFlags (f : Flags) (a b : Word) : Word × Flags :=
  let p := a.toInt * b.toInt
  let r := wInt p
  (r, flagsNZ r f.c (decide (r.toInt ≠ p)))

/-- MULH: the high 64 bits of the signed product, V 0. -/
def mulhFlags (f : Flags) (a b : Word) : Word × Flags :=
  let r := wInt ((a.toInt * b.toInt) / (2 ^ 64 : Nat))
  (r, flagsNZ r f.c false)

/-- MULHU: the high 64 bits of the unsigned product, V 0. -/
def mulhuFlags (f : Flags) (a b : Word) : Word × Flags :=
  let r := wNat (a.toNat * b.toNat / 2 ^ 64)
  (r, flagsNZ r f.c false)

/-- Signed quotient of w-bit operands under R140: truncation toward zero. -/
def idiv (a b : Int) : Int := a.tdiv b

/-- Signed remainder under R140: the sign of the dividend. -/
def irem (a b : Int) : Int := a.tmod b

/-- R255: the flags of the divide and remainder instructions, from the result and the case. -/
def divFlags (r : Word) (byZero overflow : Bool) : Word × Flags :=
  (r, flagsNZ r byZero (byZero || overflow))

/-- Table 9.8: does condition `cc` hold; code 0xF is illegal and is none. -/
def condHolds (cc : Nat) (f : Flags) : Option Bool :=
  match cc with
  | 0x0 => some f.z
  | 0x1 => some (!f.z)
  | 0x2 => some f.c
  | 0x3 => some (!f.c)
  | 0x4 => some f.n
  | 0x5 => some (!f.n)
  | 0x6 => some f.v
  | 0x7 => some (!f.v)
  | 0x8 => some (f.c && !f.z)
  | 0x9 => some (!f.c || f.z)
  | 0xA => some (f.n == f.v)
  | 0xB => some (f.n != f.v)
  | 0xC => some (!f.z && f.n == f.v)
  | 0xD => some (f.z || f.n != f.v)
  | 0xE => some true
  | _ => none

end Sys2Proof.Machine
end

