-- ==== Sys2Proof/Machine/Mem.lean ====
section
/-! DEFINITION. Machine/Mem.lean: the stored words of the module as one list of cells, the check byte of each word
(R329) and the stored-data code (R330, R331). A cell's key is the place of a byte: DRAM domain d, physical
pseudo-channel p, channel-local granule q, byte b at d * 2^36 + p * 0x3000_0000 + 64 q + b; every other storage at its
physical address (Table 1.7), each core's own Den at its Den window; serial flash at 0x8000_0000_0000 + offset.
The check byte of the word at key k lies at 2^48 + k div 8. A word is written when its check byte is listed. -/

namespace Sys2Proof.Machine

/-- Stored bytes: keys strictly rising. A key that is not listed holds no byte. -/
abbrev Memory := List Host.Cell

/-- The byte at a key, if one has been stored. -/
def memGet? (m : Memory) (k : Nat) : Option Byte := mget? m k

/-- The memory with one byte stored. -/
def memPut (m : Memory) (k : Nat) (b : Byte) : Memory := mset m k b

/-- The memory with one byte forgotten (contents lost). -/
def memDel (m : Memory) (k : Nat) : Memory := mdel m k

/-- The canonical form: keys strictly rise. -/
def memWfFrom (lo : Nat) : Memory → Bool
  | [] => true
  | (k, _) :: r => decide (lo ≤ k) && memWfFrom (k + 1) r

/-- The canonical form of a memory. -/
def Memory.wf (m : Memory) : Bool := memWfFrom 0 m

/-- The key of a word's check byte. -/
def chkKey (k : Nat) : Nat := 2 ^ 48 + k / 8

/-- Store bytes at rising keys. -/
def memPutBytes (m : Memory) (k : Nat) : List Byte → Memory
  | [] => m
  | b :: r => memPutBytes (memPut m k b) (k + 1) r

/-- Store a 64-bit word with the given check byte at the word key `k`. -/
def memPutWord (m : Memory) (k data chk : Nat) : Memory :=
  memPut (memPutBytes m k (bytesLE 8 data)) (chkKey k) (BitVec.ofNat 8 chk)

/-- The 8 bytes at a word key, unlisted bytes as 0. -/
def memWord (m : Memory) (k : Nat) : Nat :=
  natLE ((List.range 8).map fun i => (memGet? m (k + i)).getD 0#8)

/-- The check byte of a word, if the word has been written. -/
def memChk (m : Memory) (k : Nat) : Option Nat := (memGet? m (chkKey k)).map BitVec.toNat

/-- Forget every cell whose key meets `p` (storage that loses its contents). -/
def memForget (m : Memory) (p : Nat → Bool) : Memory := m.filter fun c => !p c.1

/-- Columns of the data bits (R330): weight 3 ascending, then the eight smallest of weight 5. -/
def dataCols : List Nat :=
  [ 0x07, 0x0B, 0x0D, 0x0E, 0x13, 0x15, 0x16, 0x19, 0x1A, 0x1C, 0x23, 0x25, 0x26, 0x29, 0x2A, 0x2C,
    0x31, 0x32, 0x34, 0x38, 0x43, 0x45, 0x46, 0x49, 0x4A, 0x4C, 0x51, 0x52, 0x54, 0x58, 0x61, 0x62,
    0x64, 0x68, 0x70, 0x83, 0x85, 0x86, 0x89, 0x8A, 0x8C, 0x91, 0x92, 0x94, 0x98, 0xA1, 0xA2, 0xA4,
    0xA8, 0xB0, 0xC1, 0xC2, 0xC4, 0xC8, 0xD0, 0xE0, 0x1F, 0x2F, 0x37, 0x3B, 0x3D, 0x3E, 0x4F, 0x57 ]

/-- Columns of the address bits (R330): weight 4 ascending. -/
def addrCols : List Nat :=
  [ 0x0F, 0x17, 0x1B, 0x1D, 0x1E, 0x27, 0x2B, 0x2D, 0x2E, 0x33, 0x35, 0x36, 0x39, 0x3A, 0x3C, 0x47,
    0x4B, 0x4D, 0x4E, 0x53, 0x55, 0x56, 0x59, 0x5A, 0x5C, 0x63, 0x65, 0x66, 0x69, 0x6A, 0x6C, 0x71,
    0x72, 0x74, 0x78, 0x87, 0x8B, 0x8D, 0x8E, 0x93, 0x95, 0x96, 0x99, 0x9A, 0x9C ]

/-- The XOR of the columns of the set bits of `w`, lowest bit first. -/
def colXor : List Nat → Nat → Nat
  | [], _ => 0
  | c :: r, w => nxor (if w % 2 = 1 then c else 0) (colXor r (w / 2))

/-- R330: the check bits of data `d` at folded address `a`. -/
def codeCheck (d a : Nat) : Nat := nxor (colXor dataCols d) (colXor addrCols a)

/-- Store `n` words from word key `k` on with check bits for their folded addresses from `a` on; `f` gives the data. -/
def memFill (f : Nat → Nat) (k a : Nat) : Nat → Memory → Memory
  | 0, m => m
  | n + 1, m =>
    let m1 := memFill f k a n m
    memPutWord m1 (k + 8 * n) (f n) (codeCheck (f n) (a + n))

/-- Outcome of the stored-data check (Table 12.3). -/
inductive CodeOut where
  | clean
  | dataBit (i : Nat)
  | checkBit (j : Nat)
  | bad
  deriving DecidableEq, Repr

/-- The position of a column in a list, if there. -/
def colPos (s : Nat) : List Nat → Nat → Option Nat
  | [], _ => none
  | c :: r, i => if c = s then some i else colPos s r (i + 1)

/-- Table 12.3: decode a syndrome. -/
def synDecode (s : Nat) : CodeOut :=
  if s = 0 then .clean
  else match colPos s dataCols 0 with
    | some i => .dataBit i
    | none =>
      if popcount 8 s = 1 then .checkBit (Nat.log2 s) else .bad

/-- R331: the syndrome of a stored word at folded address `a`. -/
def syndrome (data chk a : Nat) : Nat := nxor (codeCheck data a) chk

/-- The word the checker delivers. -/
def delivered (data : Nat) (o : CodeOut) : Nat :=
  match o with
  | .dataBit i => nxor data (2 ^ i)
  | _ => data

/-- The bit number that a record carries in BIT1 (R214, R527): data 0-63, check 64-71. -/
def corrBit (o : CodeOut) : Nat :=
  match o with
  | .dataBit i => i
  | .checkBit j => 64 + j
  | _ => 0xFF

/-- Replace bytes [off, off + n) of a word by the low bytes of `v` (R74). -/
def mergeBytes (w off n v : Nat) : Nat := putBits w (8 * (off + n) - 1) (8 * off) v

end Sys2Proof.Machine
end

