-- ==== Sys2Proof/Machine/State.lean ====
section
/-! DEFINITION. Machine/State.lean: everything the manual gives the module to hold, as plain data, and the
module right after a module reset (State.reset). A field's default is its value at reset. Sparse maps are
lists of key and value with rising keys; a key that is not listed holds the default. -/

namespace Sys2Proof.Machine

/-- Reasons the model stops with a fault. No command of this hardware stops the module: every detection,
trap and refusal of the manual is a next state. The one reason below is kept for a step of a state that no
run reaches; nothing raises it today, so it is safe. -/
inductive Fault where
  /-- Raised by no meaning: kept so that the type is not empty. Safe. -/
  | unreachable
  deriving DecidableEq, Repr

/-- Reasons the model has no meaning for a command. -/
inductive Refusal where
  /-- Raised by the arm of a command that has no meaning yet. Safe: nothing is claimed of it. -/
  | notModelled (mnemonic : String)
  deriving DecidableEq, Repr

/-! ## Fox and Badger cores (chapters 9 and 10) -/

/-- One context bank (R231): G0-G15, B0-B7, FLAGS, STE, the return stack pointer and the shadow stack,
newest entry first, of which the first `inHw` entries are held in hardware and the others lie in the spill area (R276). -/
structure Bank where
  g : Vector Word 16 := Vector.replicate 16 0#64
  b : Vector (BitVec 32) 8 := Vector.replicate 8 0#32
  flags : Flags := {}
  ste : Nat := 0
  rsp : Nat := 0x8800
  shadow : List Nat := []
  inHw : Nat := 0
  deriving DecidableEq, Repr

/-- A store in the window store buffer (R297): address, size in bytes, data, the privilege of the word that made it and the job that ran then. -/
structure BufStore where
  addr : Nat
  size : Nat
  data : Nat
  sup : Bool := false
  job : Option Nat := none
  deriving DecidableEq, Repr

/-- A descriptor that S.ISSUE put into a window and that waits for the window's decision (R56). -/
structure HeldDesc where
  words : List Word
  ste : Nat
  deriving DecidableEq, Repr

/-- A signature window of one core (R294-R297): signature, words retired, stores counted, the buffered
stores in program order and the descriptor of a closing S.ISSUE. -/
structure Win where
  sig : Nat := 0xFFFFFFFFFFFFFFFF
  words : Nat := 0
  stores : Nat := 0
  buf : List BufStore := []
  desc : Option HeldDesc := none
  deriving DecidableEq, Repr

/-- A closed window that awaits the Owl's decision, with its close record (Table 11.2), and whether it is
a rejoin boundary (R301: a close of the first two kinds of R296). -/
structure ClosedWin where
  win : Win
  rec0 : Nat
  rec1 : Nat
  boundary : Bool
  deriving DecidableEq, Repr

/-- An entry of EREC (R266): privilege (true is supervisor) and context, 0xF for the exception bank. -/
structure ErecEntry where
  sup : Bool
  ctx : Nat
  deriving DecidableEq, Repr

/-- What a core does, as FOX_STAT.RUN shows it (Table 19.6); the debug halt that it also shows is the cluster's
(`Cluster.haltAt`). -/
inductive RunState where
  | held | executing | stalled | stopped | fenced
  deriving DecidableEq, Repr

/-- A context spill or load that runs in the background (R279, R280). -/
structure SpillOp where
  ctx : Nat
  load : Bool
  deriving DecidableEq, Repr

/-- One core of a cluster's triad or of the Badger pair. `due` holds the delivery points of R150 whose traps have
not all been delivered, the newest first: the depth of EREC at each point and the acceptance orders of its streams; `pwait` the handle that an S.ISSUE
with CORECFG.PRECISE waits for (R272). -/
structure Core where
  run : RunState := .held
  pc : Nat := 0
  lastPc : Nat := 0
  retired : Nat := 0
  sup : Bool := true
  exc : Bool := false
  cur : Nat := 0
  banks : List (Nat × Bank) := []
  live : List Nat := [0]
  resident : List Nat := [0]
  spill : Option SpillOp := none
  pendCur : Option Nat := none
  v : Vector (BitVec 128) 16 := Vector.replicate 16 0#128
  precise : Bool := false
  mulfix : Bool := false
  evbase : Nat := 0
  cause : Nat := 0
  causeImp : Bool := false
  eaddr : Word := 0#64
  erec : List ErecEntry := []
  critEnd : Option Nat := none
  escbase : Nat := 0
  escPc : Nat := 0
  escState : Word := 0#64
  escAddr : Word := 0#64
  escG15 : Word := 0#64
  escActive : Bool := false
  saveHead : Nat := 0
  win : Win := {}
  closed : Option ClosedWin := none
  released : List BufStore := []
  issue : Option HeldDesc := none
  irq : List (Nat × Word) := []
  dcache : List (Nat × List Byte) := []
  icache : List (Nat × List Byte) := []
  fetchq : List (Nat × Nat) := []
  stm : Option Nat := none
  due : List (Nat × List Nat) := []
  pwait : Option Nat := none
  deriving DecidableEq, Repr

/-! ## Streams, chains and tiles of a cluster (chapters 3 to 5 and 11) -/

/-- Life of an issue slot (R55). -/
inductive SlotState where
  | free | waiting | running | retired
  deriving DecidableEq, Repr

/-- A range of bytes [lo, hi) in whole granules (R63). -/
structure Span where
  lo : Nat
  hi : Nat
  deriving DecidableEq, Repr

/-- A stream fault that a block met (R87, R88): element, cause of Table 3.6, slot code of AGU_SFLT_ADDR and address. -/
structure SFault where
  elem : Nat
  cause : Nat
  slot : Nat
  addr : Nat
  deriving DecidableEq, Repr

/-- One element of a stream as the address generators deliver it (R60-R62): number, activity, mask byte, operands and destination
addresses. -/
structure Elem where
  no : Nat
  act : Bool
  mask : Nat := 1
  src : List Nat := [0, 0, 0]
  dst : List Nat := [0, 0]
  deriving DecidableEq, Repr

/-- An issue slot with its stream (R54, R55), its hazard entry (R77: `reads` are its exact read ranges), its copy of the chain entry
(R103), the elements of the blocks that a PRECISE stream has taken (R88: a fault at a write undoes those from the faulting element on),
its flags and trap intervals (R143, R149), for the even (or only) tile of each unit and for the odd tile, the block
partials on the home unit (R111), and the addresses that an imprecise scatter has written (R75). -/
structure Slot where
  used : Bool := false
  gen : Nat := 0
  state : SlotState := .free
  order : Nat := 0
  desc : List Word := []
  hdr : Word := 0#64
  nodes : List Word := []
  consts : List Word := []
  en : Nat := 0
  deal : List Nat := []
  core : Nat := 0
  reads : List Span := []
  writes : List Span := []
  hull : Option Span := none
  flagsE : Nat := 0
  flagsO : Nat := 0
  trapE : Option (Nat × Nat) := none
  trapO : Option (Nat × Nat) := none
  taken : List Nat := []
  done : List Nat := []
  partsE : List (Nat × List Word) := []
  partsO : List (Nat × List Word) := []
  fault : Option SFault := none
  scat : List Nat := []
  log : List (Nat × List Elem) := []
  cause : Nat := 0
  pos : Nat := 0
  consumed : Bool := false
  deriving DecidableEq, Repr

/-- A stream-arithmetic trap that is pending on the issuing core (R148). -/
structure Trap where
  handle : Nat
  order : Nat
  precise : Bool
  flags : Nat
  first : Nat
  last : Nat
  deriving DecidableEq, Repr

/-- A result word placed in a commit buffer (R309): element number, destination byte address, value, size and the
check byte of the entry (R311). -/
structure ResWord where
  elem : Nat
  addr : Nat
  val : Nat
  size : Nat
  chk : Nat
  deriving DecidableEq, Repr

/-- A window of a commit buffer (R310): stream slot, block, destination, window slot of the buffer, entries in element
order, signature, stream-fault cause, whether it has closed, and the pattern that an injection has put into its
signature (0 for none). -/
structure CmtWin where
  slot : Nat
  block : Nat
  dest : Nat
  half : Nat
  words : List ResWord := []
  sig : Nat := 0xFFFFFFFFFFFFFFFF
  cause : Nat := 0
  closed : Bool := false
  inj : Nat := 0
  deriving DecidableEq, Repr

/-- One stream tile: its commit buffer windows, oldest first (R311). -/
structure Tile where
  wins : List CmtWin := []
  deriving DecidableEq, Repr

/-- A resynchronisation that runs (R300): odd core, donor, whether the Den copy has ended, and whether the pair waits at
the rejoin boundary with its window decided (step 4). -/
structure Resync where
  odd : Nat
  donor : Nat
  copied : Bool
  atBoundary : Bool := false
  deriving DecidableEq, Repr

/-- Where a stop of the cluster's cores stands (R305). -/
inductive StopPhase where
  | running | selfTest | awaitRestart
  deriving DecidableEq, Repr

/-- The state of one cluster that its registers do not hold. `inBarrier` says that the executive has counted the cluster into the job
barrier, `barrierOpen` that the barrier has let it go (R85); `last38` is when source 0x38 was last detected in the cluster (source
0x39). -/
structure Cluster where
  slots : List (Nat × Slot) := []
  nextOrder : Nat := 0
  fences : List Nat := []
  traps : List Trap := []
  job : Option Nat := none
  rank : Nat := 0
  inBarrier : Bool := false
  barrierOpen : Bool := false
  returned : Bool := false
  retG0 : Word := 0#64
  resync : Option Resync := none
  stop : StopPhase := .running
  stopCounted : Bool := true
  stopAt : Nat := 0
  resyncHist : List (Nat × List Nat) := []
  stopHist : List Nat := []
  last38 : Option Nat := none
  owlHb : Nat := 0
  pairHist : List (Nat × List Nat) := []
  pairHb : List (Nat × Nat) := []
  haltAt : Option Nat := none
  stepOne : Bool := false
  cycBase : Nat := 0
  cycSince : Nat := 0
  deriving DecidableEq, Repr

/-- The Badger pair (R323): its self-test and restart, its stop history and its heartbeat count. -/
structure BadgerPair where
  restarting : Bool := false
  stopHist : List Nat := []
  hb : Nat := 0
  hbPhase : Nat := 0
  deriving DecidableEq, Repr

/-! ## Jobs (chapters 3, 13 and 15) -/

/-- A declared range of a job (Table 3.1). -/
structure Range where
  out : Bool
  base : Nat
  len : Nat
  deriving DecidableEq, Repr

/-- How a job has ended, before its completion is posted (Table 15.7). -/
structure JobEnd where
  status : Nat
  word1 : Word
  word2 : Word
  deriving DecidableEq, Repr

/-- A job record (R50-R53, R419), in order of acceptance. -/
structure Job where
  handle : Nat
  part : Nat
  chain : Nat
  tag : Nat
  cseq : Nat
  entry : Nat
  pblock : Nat
  started : Bool := false
  startCycle : Nat := 0
  clusters : List Nat := []
  ranges : List Range := []
  bist : Bool := false
  ended : Option JobEnd := none
  deriving DecidableEq, Repr

/-! ## Mailboxes (chapter 15) -/

/-- A command of the last 64 accepted on a chain (R406, R407): its header fields and, once answered, its status and
first data word. -/
structure Hist where
  cseq : Nat
  op : Nat
  part : Nat
  mod : Bool
  answer : Option (Nat × Option Word)
  deriving DecidableEq, Repr

/-- A command in a queue of R412: the hub-island cycle in which its last checked word arrived, whether all its words have arrived (the data of a
CMD_MEM_WRITE come after its checks), and whether the checks of a CMD_MEM_WRITE have been made and stand (R408). -/
structure Queued where
  cmd : Cmd
  cycle : Nat
  ready : Bool := true
  passed : Bool := false
  deriving DecidableEq, Repr

/-- The command queues (R412), one for each partition and one for module-scope commands: the commands that wait, in the order of R412, and
the queue served last (4 is the module's). -/
structure Queues where
  waiting : List Queued := []
  last : Nat := 4
  deriving DecidableEq, Repr

/-- One mailbox set (Table 15.1). `early` holds the status of a CMD_MEM_WRITE that has failed the checks that R408 makes when its
address and count have arrived (CSEQ and status). -/
structure Mbx where
  accept : Bool := false
  framing : Bool := false
  expValid : Bool := false
  expect : Nat := 0
  notifyEn : Bool := true
  partialWords : List Word := []
  partialDup : Bool := false
  history : List Hist := []
  early : List (Nat × Nat) := []
  dupWait : List Cmd := []
  rspQ : List (List Word) := []
  kept : List Word := []
  widx : Nat := 0
  curHead : Word := 0#64
  mid : Bool := false
  rseq : Nat := 0
  evtQ : List Word := []
  evtLost : Bool := false
  dropped : Nat := 0
  eseq : Nat := 0
  notify : Bool := false
  lastNotify : Option Nat := none
  deriving DecidableEq, Repr

/-- A long command that runs (R413): the command, and the range of a fill. -/
structure LongCmd where
  cmd : Cmd
  die : Nat
  lo : Nat
  hi : Nat
  deriving DecidableEq, Repr

/-- A mode transition in progress (R45): the command that asked for it, the mode before and the target. -/
structure Transition where
  cmd : Option Cmd
  before : Nat
  target : Nat
  tested : Bool
  deriving DecidableEq, Repr

/-- Completed and not yet acknowledged handles of one partition for one chain (R411). -/
structure DoneList where
  handles : List Nat := []
  dropped : Bool := false
  listed : List Nat := []
  deriving DecidableEq, Repr

/-- What Badger holds for the command set: queues of long commands, transitions, jobs, handle counters, and whether a
partition has been started since reset (R25: the module is in BOOT until the first is); `release` is the RELEASE word of
the image set that runs (Table 16.3). -/
structure Mgmt where
  jobs : List Job := []
  nextJob : List (Nat × Nat) := []
  trans : List (Nat × Transition) := []
  long : List LongCmd := []
  done : List (Nat × DoneList) := []
  retireWait : List Cmd := []
  view : List (Nat × (Word × Word × Word × Nat)) := []
  resetAtNs : Option Nat := none
  pwrCmd : Option Cmd := none
  started : Bool := false
  release : Word := 0#64
  deriving DecidableEq, Repr

/-! ## Memory system (chapters 6 to 8 and 12) -/

/-- A piece that has been issued and whose response has not returned (R196, R197): the matrix and master port where it waits for a grant
(none once its last target port has granted it), the grants so far (die, master port, target port; oldest first), the link channels that it has
taken, the order of its last grant, whether the reserve of R202 has held it, whether a parked port granted it (R195), whether it is poisoned
(R328), and its answer. -/
structure OutPiece where
  piece : Piece
  place : Option (Nat × Nat) := none
  grants : List (Nat × Nat × Nat) := []
  hops : List Nat := []
  stamp : Nat := 0
  held : Bool := false
  parked : Bool := false
  poisoned : Bool := false
  answer : Option (Nat × List Word) := none
  deriving DecidableEq, Repr

/-- A slot of a repeat-correct table (R341, Table 12.12) with its bookkeeping: the order of the last increment, whether
it was incremented in this lap, and the physical channel of a DRAM word. -/
structure RctEntry where
  state : Nat := 0
  scratch : Bool := false
  count : Nat := 0
  recd : Bool := false
  recKind : Nat := 0
  bitNo : Nat := 0
  waddr : Nat := 0
  stamp : Nat := 0
  inLap : Bool := false
  deriving DecidableEq, Repr

/-- One memory domain beside its registers: retirement map slots whose VALID is 1, and PAGE of the others (R190), the substitution engine (R173, R174), the
repeat-correct table, whether a whole-domain fill has ended the interval of R334, the channels whose suspects have reached PCH_SUSPECT
(R344), the words read uncorrectable in this lap by channel (R491), when Hedgehog's lap started and whether
it has already been reported overdue (R338). -/
structure Domain where
  retire : List (Nat × (Nat × Bool)) := []
  retOld : List (Nat × Nat) := []
  written : Bool := false
  reached : List Nat := []
  subCmd : Option Cmd := none
  subSpare : Nat := 0
  subTarget : Nat := 0
  subCopy : Bool := false
  rct : List (Nat × RctEntry) := []
  rctStamp : Nat := 0
  rctDue : List Nat := []
  uceWords : List (Nat × List Nat) := []
  lapStart : Nat := 0
  lapLate : Bool := false
  deriving DecidableEq, Repr

/-- The matrices: the pieces issued, in order of issue, the order of the next grant, the master granted last per target port (R194), the
cycles that partitions have taken of a shared port of H in a window (port, then window and counts by partition; R37, R205), the link
channels that retrain, request credits by link channel (R201),
the master served last by a scratch slot (R215), the replays that have failed at a hop (R327) and the response returned last
(status and data, R196). -/
structure Fabric where
  out : List OutPiece := []
  stamp : Nat := 0
  shares : List (Nat × (Nat × List (Nat × Nat))) := []
  untrained : List Nat := []
  lastGrant : List (Nat × Nat) := []
  credits : List (Nat × Nat) := []
  slotLast : List (Nat × Nat) := []
  hopTries : List (Nat × Nat) := []
  lastResp : Option (Nat × List Word) := none
  deriving DecidableEq, Repr

/-! ## Fault reaction (chapter 13) -/

/-- An entry of the flash fault log (R369). -/
structure LogEntry where
  stat : Word
  info : Word
  time : Word
  count : Word
  fence : Word
  gen : Nat
  hubTime : Nat
  deriving DecidableEq, Repr

/-- Fault bookkeeping beside the FLT registers: HALTED and its hub-island time, quarantined boundaries with the cycle of their island at
which the count (re)started (R366), the last exhaustion at each hop (source 0x03), toggles in flight and their parameters, the source and location of the last link fence, and the
partitions for which source 0x62 has been recorded (R476). -/
structure Faults where
  halted : Bool := false
  haltCycle : Nat := 0
  hbArmed : Bool := false
  quar : List (Nat × Nat) := []
  hopExh : List (Nat × Nat) := []
  evFlight : List Nat := []
  evPar : List (Nat × Nat) := []
  linkCause : Nat × Nat := (0, 0)
  clkVoid : List Nat := []
  deriving DecidableEq, Repr

/-! ## Kongerax link (chapter 14) -/

/-- A frame in a retry buffer (R381): how often it has been sent, and whether it is to be sent again. -/
structure SentFrame where
  frame : Frame
  sends : Nat
  due : Bool
  deriving DecidableEq, Repr

/-- A frame that waits to be sent: whether it is the module's own (its SRC is filled when it is sent), and whether it is held
while the module has no address (R390). -/
structure OutFrame where
  frame : Frame
  own : Bool
  hold : Bool
  deriving DecidableEq, Repr

/-- One port (A-up, A-down, B-up, B-down = 0 to 3) beside its LNK registers: the retry buffer and the frames that wait (R381,
R383), the frames held out of order and the frames accepted and not yet applied or relayed (R379, R382), FREED with its
reports (R382), the partner's FREED last seen, the times that the timeouts count from, the last NAK (R380), the CRC errors of the 1 ms
interval (R398), the schedule period (R383), the count of alignment blocks (R376) and the block time of the last, whether numbering restarted
(R397), the LINK frame sent last (R379, R380, R382), and the line: the scrambler of each lane, the coded blocks of the last transmission with
their lanes, and when it left (R375, R376). -/
structure Port where
  retry : List SentFrame := []
  waiting : List OutFrame := []
  held : List Frame := []
  taken : List Frame := []
  freed : Nat := 0
  reported : Nat := 0
  freeAt : Option Nat := none
  lastReport : Nat := 0
  ackDue : Bool := false
  seen : Nat := 0
  lastAck : Nat := 0
  nak : Option (Nat × Nat) := none
  crcIv : Nat := 0
  crcMs : Nat := 0
  upAt : Nat := 0
  period : Nat := 0
  blocks : Nat := 0
  downSince : Option Nat := none
  align : Nat := 0
  alignAt : Nat := 0
  restarted : Bool := true
  linkSent : Option Frame := none
  scram : List Nat := []
  line : List (Nat × Nat) := []
  lineAt : Option Nat := none
  deriving DecidableEq, Repr

/-! ## Start-up, security, power and pins (chapters 16 to 18 and 21) -/

/-- What the serial flash holds beside the image sets: the retirement record and the fault log (R433). -/
structure Flash where
  subs : List (Nat × (Nat × Nat)) := []
  pages : List (Nat × List Nat) := []
  log : List LogEntry := []
  deriving DecidableEq, Repr

/-- The fuses (R447). -/
structure Fuses where
  serial : Nat := 0
  vendorHash : Nat := 0
  ownerHash : Nat := 0
  ownerPwd : Nat := 0
  minSvn : Nat := 0
  lc : Nat := 0
  variant : Nat := 0x51
  stepping : Nat := 1
  deriving DecidableEq, Repr

/-- Debug and life-cycle state of the hub (chapter 17): the hub key store (verified public keys x and y, nonces by partition with
level, value and time of drawing), the end of a lockout, the life-cycle request with its result, the module reset that
follows a transition, the lid and mesh filters, the short openings of EV276 and the word that a debug read last
returned. -/
structure Security where
  vendorKey : Option (Nat × Nat) := none
  ownerKey : Option (Nat × Nat) := none
  nonces : List (Nat × (Nat × Nat × Nat)) := []
  lockEnd : Option Nat := none
  lcParts : List Byte := []
  lcClosed : Bool := false
  lcResult : Nat := 0
  lcNumber : Nat := 0
  lcResetAt : Option Nat := none
  lidOpenAt : Option Nat := none
  meshAt : Option Nat := none
  shortOpens : Nat := 0
  longestMs : Nat := 0
  dbgReply : Word := 0#64
  deriving DecidableEq, Repr

/-- Pins and inputs (chapter 21). `started` says that the start-up sequence has begun, so that the fence engine drives the
discretes (R505); `driven` is what EXTEST drives (R456). -/
structure Pins where
  resetN : Bool := true
  pwrGood : Bool := true
  started : Bool := true
  hbIn : Bool := false
  hbAt : Nat := 0
  loopClosed : Bool := true
  meshOpen : Bool := false
  meshShort : Bool := false
  slotId : Nat := 0
  safeA : Bool := false
  safeB : Bool := true
  sensors : List (Nat × Nat) := []
  driven : Option (List Bool) := none
  deriving DecidableEq, Repr

/-- The SMBus service port and the image-update service (R510-R512): the selected inst, the image set being written with the
count of bytes written and the length that its close gave, the state of IMG_STAT, whether an operation has completed, and the block that a read last returned
(none for NACK). -/
structure Service where
  sel : Nat := 0
  imgSet : Nat := 0
  imgLen : Nat := 0
  imgCount : Nat := 0
  imgState : Nat := 0
  imgCode : Nat := 0
  opDone : Bool := false
  reply : Option (List Word) := none
  deriving DecidableEq, Repr

/-- Spans of P2 and P3 since module reset (Table 18.2): how long the fabric islands of the compute dies have been gated and the
hub island has run at 100 MHz, in nanoseconds of ended spans, with the start of the present one. -/
structure Islands where
  fabNs : Nat := 0
  fabAt : Option Nat := none
  hubNs : Nat := 0
  hubAt : Option Nat := none
  deriving DecidableEq, Repr

/-! ## The whole -/

/-- Everything the module holds but its stored words and the queue of commands. `regs` is the register file, keyed by
register address (R480); a register that is not listed holds its reset word (`regReset`). `now` counts nanoseconds
since power arrived and `resetAt` the last module reset. `freeCtr` is the model's own counter: it numbers the values
that the manual leaves open. -/
structure Chip where
  now : Nat := 0
  resetAt : Nat := 0
  islands : Islands := {}
  rawAt : Option (Nat × Nat) := none
  powered : Bool := true
  freeCtr : Nat := 0
  regs : List (Nat × Word) := []
  cores : List (Nat × Core) := []
  clusters : List (Nat × Cluster) := []
  tiles : List (Nat × Tile) := []
  badger : BadgerPair := {}
  mgmt : Mgmt := {}
  mbxA : Mbx := {}
  mbxB : Mbx := {}
  queues : Queues := {}
  domains : List (Nat × Domain) := []
  fabric : Fabric := {}
  faults : Faults := {}
  ports : List (Nat × Port) := []
  flash : Flash := {}
  fuses : Fuses := {}
  sec : Security := {}
  pins : Pins := {}
  svc : Service := {}
  deriving DecidableEq, Repr

/-- The machine: its units, its stored words, and the commands that wait, first in first out. -/
structure State where
  chip : Chip
  mem : Memory
  pending : List Instr
  deriving DecidableEq, Repr

/-- The module right after a module reset: every register at its reset word, no word of memory stored, no command
waiting. Values that the manual does not state are those of the assumption log. -/
def State.reset : State := { chip := {}, mem := [], pending := [] }

end Sys2Proof.Machine
end

