-- ==== Sys2Proof/Machine/Ops.lean ====
section
/-! DEFINITION. Machine/Ops.lean: the named reads and updates of the module's state: registers and their fields, units by
number, time, partitions and events. -/

namespace Sys2Proof.Machine

/-! ## Registers -/

/-- The word a register holds. -/
def Chip.reg (c : Chip) (a : Nat) : Word := (mget? c.regs a).getD (regReset a)

/-- Set a register's word. -/
def Chip.setReg (c : Chip) (a : Nat) (w : Word) : Chip := { c with regs := mset c.regs a w }

/-- The value of a register field. -/
def Chip.fld (c : Chip) (a : Nat) (f : Fld) : Nat := fget (c.reg a) f

/-- Set a register field. -/
def Chip.setFld (c : Chip) (a : Nat) (f : Fld) (v : Nat) : Chip := c.setReg a (fput (c.reg a) f v)

/-- Add to a saturating counter field. -/
def Chip.addFld (c : Chip) (a : Nat) (f : Fld) (n : Nat) : Chip :=
  c.setFld a f (satAdd (c.fld a f) n (2 ^ (f.hi + 1 - f.lo) - 1))

/-- A one-bit field as a truth value. -/
def Chip.flag (c : Chip) (a : Nat) (f : Fld) : Bool := c.fld a f != 0

/-! ## Units by number -/

/-- The core numbered 3 cluster + k, or 144 + k for Badger. -/
def Chip.core (c : Chip) (k : Nat) : Core := mget {} c.cores k

/-- Replace a core. -/
def Chip.setCore (c : Chip) (k : Nat) (x : Core) : Chip := { c with cores := mset c.cores k x }

/-- The cluster 12d + c. -/
def Chip.clu (c : Chip) (n : Nat) : Cluster := mget {} c.clusters n

/-- Replace a cluster. -/
def Chip.setClu (c : Chip) (n : Nat) (x : Cluster) : Chip := { c with clusters := mset c.clusters n x }

/-- An issue slot of a cluster. -/
def Chip.slot (c : Chip) (n k : Nat) : Slot := mget {} (c.clu n).slots k

/-- Replace an issue slot. -/
def Chip.setSlot (c : Chip) (n k : Nat) (x : Slot) : Chip :=
  c.setClu n { c.clu n with slots := mset (c.clu n).slots k x }

/-- The tile 192d + 16c + t. -/
def Chip.tile (c : Chip) (n : Nat) : Tile := mget {} c.tiles n

/-- Replace a tile. -/
def Chip.setTile (c : Chip) (n : Nat) (x : Tile) : Chip := { c with tiles := mset c.tiles n x }

/-- The domain of die d. -/
def Chip.dom (c : Chip) (d : Nat) : Domain := mget {} c.domains d

/-- Replace a domain. -/
def Chip.setDom (c : Chip) (d : Nat) (x : Domain) : Chip := { c with domains := mset c.domains d x }

/-- A Kongerax port. -/
def Chip.port (c : Chip) (p : Nat) : Port := mget {} c.ports p

/-- Replace a port. -/
def Chip.setPort (c : Chip) (p : Nat) (x : Port) : Chip := { c with ports := mset c.ports p x }

/-- The mailbox of a chain: 0 A, 1 B. -/
def Chip.mbx (c : Chip) (ch : Nat) : Mbx := if ch = 0 then c.mbxA else c.mbxB

/-- Replace a mailbox. -/
def Chip.setMbx (c : Chip) (ch : Nat) (x : Mbx) : Chip :=
  if ch = 0 then { c with mbxA := x } else { c with mbxB := x }

/-! ## Time -/

/-- HUB_CYCLE (R486): 800 MHz cycles since module reset. -/
def Chip.hubCycle (c : Chip) : Nat := (c.now - c.resetAt) * 800 / 1000

/-- Length of spans: the ended ones and the present one. -/
def spanNs (now ended : Nat) (start : Option Nat) : Nat := ended + (match start with | some t => now - t | none => 0)

/-- Edges of a compute die's fabric island since module reset, at 1.6 GHz; it is gated in P2 and P3 (Table 18.2). -/
def Chip.fabCycle (c : Chip) : Nat := (c.now - c.resetAt - spanNs c.now c.islands.fabNs c.islands.fabAt) * 1600 / 1000

/-- Edges of the fabric island of H, at 1.6 GHz in every power state. -/
def Chip.fabCycleH (c : Chip) : Nat := (c.now - c.resetAt) * 1600 / 1000

/-- Edges of the link island, at 644.53125 MHz in every power state. -/
def Chip.linkCycle (c : Chip) : Nat := (c.now - c.resetAt) * 64453125 / 100000000

/-- Edges of the hub island: 800 MHz, and 100 MHz in P3. -/
def Chip.hubEdges (c : Chip) : Nat :=
  let slow := spanNs c.now c.islands.hubNs c.islands.hubAt
  ((c.now - c.resetAt - slow) * 800 + slow * 100) / 1000

/-- Start or end a span. -/
def spanSet (now ended : Nat) (start : Option Nat) (on : Bool) : Nat × Option Nat :=
  match start, on with
  | none, true => (ended, some now)
  | some t, false => (ended + (now - t), none)
  | s, _ => (ended, s)

/-- A power state begins: the spans of P2 and P3, and of P3, start or end (Table 18.2). -/
def Chip.setIslands (c : Chip) (st : Nat) : Chip :=
  let f := spanSet c.now c.islands.fabNs c.islands.fabAt (decide (2 ≤ st))
  let h := spanSet c.now c.islands.hubNs c.islands.hubAt (decide (3 ≤ st))
  { c with islands := ⟨f.1, f.2, h.1, h.2⟩ }

/-- CYCLE of a cluster island (R234): edges received since reset at the running clock; it stands while the island is
gated. -/
def Chip.cluCycle (c : Chip) (n : Nat) : Nat :=
  let x := c.clu n
  if c.flag (R.CLK_CLUSTER n) F.CLK_CLUSTER_GATED then x.cycBase
  else x.cycBase + (c.now - x.cycSince) * c.fld (R.CLK_CLUSTER n) F.CLK_CLUSTER_CUR_MHZ / 1000

/-- Bring a cluster's cycle count up to now, before its clock changes. -/
def Chip.rebase (c : Chip) (n : Nat) : Chip :=
  c.setClu n { c.clu n with cycBase := c.cluCycle n, cycSince := c.now }

/-- The cycles of the island of a fault status inst (Table 13.5); the instances 87 to 90 read HUB_CYCLE (R486). -/
def Chip.instCycle (c : Chip) (n : Nat) : Nat :=
  if n < 48 then c.cluCycle n
  else if n < 76 then c.fabCycle
  else if n = 76 then c.linkCycle
  else if n = 83 ∨ n = 85 ∨ n = 86 then c.fabCycleH
  else if 87 ≤ n then c.hubCycle
  else c.hubEdges

/-- Edges of the memory-controller islands since module reset: 1.2 GHz, gated in P2 and P3 (Table 18.2). -/
def Chip.memCycle (c : Chip) : Nat := (c.now - c.resetAt - spanNs c.now c.islands.fabNs c.islands.fabAt) * 1200 / 1000

/-- The cycles of a boundary's own island (Table 13.10): the memory-controller island for a command queue, the island of the boundary's
inst otherwise. -/
def Chip.bndCycle (c : Chip) (b : Nat) : Nat :=
  let inst := b / 0x10000
  if 53 ≤ inst ∧ inst < 76 ∧ (inst - 53) % 7 = 0 then c.memCycle else c.instCycle inst

/-- R366: is a boundary in quarantine: has its count started, and not reached 4,096 cycles of its own island? -/
def Chip.quarantined (c : Chip) (b : Nat) : Bool :=
  match mget? c.faults.quar b with
  | some t => decide (c.bndCycle b < t + 4096)
  | none => false

/-- Take a fresh number for a value that the manual leaves open. -/
def Chip.fresh (c : Chip) : Chip := { c with freeCtr := c.freeCtr + 1 }

/-! ## Partitions (chapter 2) -/

/-- The die of a cluster. -/
def dieOfCluster (n : Nat) : Nat := n / 12

/-- The clusters of a die. -/
def clustersOfDie (d : Nat) : List Nat := (List.range 12).map fun i => 12 * d + i

/-- Is partition p defined (PAR_CTRL.EN)? -/
def Chip.parEn (c : Chip) (p : Nat) : Bool := c.flag (R.PAR_CTRL p) F.PAR_CTRL_EN

/-- The member dies of a partition; none when it is not defined. -/
def Chip.diesOf (c : Chip) (p : Nat) : List Nat :=
  if c.parEn p then onesOf 4 (c.fld (R.PAR_CTRL p) F.PAR_CTRL_DIES) else []

/-- The partition of a die (R29: at most one). -/
def Chip.partOf (c : Chip) (d : Nat) : Option Nat :=
  (List.range 4).find? fun p => (c.diesOf p).contains d

/-- PAR_STATUS.MODE of a partition (R25; 0x7 while the module is HALTED). -/
def Chip.mode (c : Chip) (p : Nat) : Nat := c.fld (R.PAR_STATUS p) F.PAR_STATUS_MODE

/-- SAFE-T or SAFE-D. -/
def isSafe (m : Nat) : Bool := m == 1 || m == 2

/-- Is the partition in SAFE-T or SAFE-D? -/
def Chip.safePart (c : Chip) (p : Nat) : Bool := isSafe (c.mode p)

/-- The mode of a die's partition; BOOT for an unassigned die. -/
def Chip.dieMode (c : Chip) (d : Nat) : Nat :=
  match c.partOf d with
  | some p => c.mode p
  | none => 0

/-- The mode whose configuration a cluster runs: its partition's, or the one that OWL_CTRL.TESTCFG selects while a
redundancy test runs on it (R320). -/
def Chip.cluMode (c : Chip) (n : Nat) : Nat :=
  let m := c.dieMode (n / 12)
  if c.mgmt.jobs.any fun j => j.bist && j.ended.isNone && j.clusters.contains n then
    match c.fld (R.OWL_CTRL n) F.OWL_CTRL_TESTCFG with
    | 1 => 1
    | 2 => 2
    | _ => m
  else m

/-- Clusters of a partition, ascending by die and cluster. -/
def Chip.clustersOf (c : Chip) (p : Nat) : List Nat := ((c.diesOf p).map clustersOfDie).flatten

/-- Owner chain of a partition. -/
def Chip.owner (c : Chip) (p : Nat) : Nat := c.fld (R.PAR_CTRL p) F.PAR_CTRL_OWNER

/-- Is the cluster fenced (FLT_FENCE bit 19)? -/
def Chip.cluFenced (c : Chip) (n : Nat) : Bool := bit (c.reg (R.FLT_FENCE n)).toNat 19

/-- Is tile t of cluster n fenced? -/
def Chip.tileFenced (c : Chip) (n t : Nat) : Bool := bit (c.reg (R.FLT_FENCE n)).toNat t

/-- Is core k of cluster n fenced? -/
def Chip.coreFenced (c : Chip) (n k : Nat) : Bool := bit (c.reg (R.FLT_FENCE n)).toNat (16 + k)

/-- The fault status inst of a die's partition manager. -/
def parInst (d : Nat) : Nat := 54 + 7 * d

/-- Is the die fenced (FENCE_DIE, or an FTL while unassigned)? -/
def Chip.dieFenced (c : Chip) (d : Nat) : Bool := bit (c.reg (R.FLT_FENCE (parInst d))).toNat 0

/-- A cluster counts as in service: not fenced, with at least a compared pair of cores (Table 2.3). -/
def Chip.cluInService (c : Chip) (n : Nat) : Bool :=
  !c.cluFenced n && decide (2 ≤ ((List.range 3).filter fun k => !c.coreFenced n k).length)

/-- Tile pairs of a cluster with neither tile fenced; none in a fenced cluster. -/
def Chip.pairsInService (c : Chip) (n : Nat) : List Nat :=
  if c.cluFenced n then [] else
    (List.range 8).filter fun k => !c.tileFenced n (2 * k) && !c.tileFenced n (2 * k + 1)

/-- Physical channels of a domain in state FENCED (R180, FLT_FENCE of instance 53 + 7d and RES_PCH). -/
def Chip.fencedPch (c : Chip) (d : Nat) : List Nat :=
  (List.range 64).filter fun n =>
    c.fld (R.RES_PCH d n) F.RES_PCH_STATE == 5 && c.fld (R.RES_PCH d n) F.RES_PCH_LOGICAL != 0x3F

/-- Clusters of a partition in service. -/
def Chip.parClusters (c : Chip) (p : Nat) : Nat := ((c.clustersOf p).filter c.cluInService).length

/-- Tile pairs of a partition in service. -/
def Chip.parPairs (c : Chip) (p : Nat) : Nat :=
  ((c.clustersOf p).map fun n => (c.pairsInService n).length).sum

/-- The true number of fenced active pseudo-channels of a partition (R39). -/
def Chip.parPch (c : Chip) (p : Nat) : Nat := ((c.diesOf p).map fun d => (c.fencedPch d).length).sum

/-! ## Events (chapters 16 and 20) -/

/-- A source toggles line k (R441); `par` is what its DETAIL reports beside registers (Table 20.1). The toggle is in
flight until EVENT_RAISE. -/
def Chip.raise (c : Chip) (k : Nat) (par : Nat := 0) : Chip :=
  { c with faults := { c.faults with
      evFlight := c.faults.evFlight ++ [k], evPar := mset c.faults.evPar k par } }

/-- Set the status fields of PAR_STATUS that follow from the fence bits (R34), raise the degraded event when a field of
[31:0] changes while DEGRADED is 1 (chapter 20). -/
def Chip.syncPart (c : Chip) (p : Nat) : Chip :=
  let w := c.reg (R.PAR_STATUS p)
  let w1 := fput w F.PAR_STATUS_CL_IN_SERVICE (c.parClusters p)
  let w2 := fput w1 F.PAR_STATUS_PCH_FENCED (min 15 (c.parPch p))
  let w3 := fput w2 F.PAR_STATUS_PAIRS_IN_SERVICE (c.parPairs p)
  let c1 := c.setReg (R.PAR_STATUS p) w3
  if fget w F.PAR_STATUS_DEGRADED = 1 ∧ bits w3.toNat 31 0 ≠ bits w.toNat 31 0
  then c1.raise (107 + p) else c1

/-- Form PAR_DIE of a die (R492) from the partition's settings, its mode and FAB_CTRL. -/
def Chip.syncDie (c : Chip) (d : Nat) : Chip :=
  let w := match c.partOf d with
    | some p => fat F.PAR_DIE_MEMBER 1 + fat F.PAR_DIE_PART p
        + fat F.PAR_DIE_DIES (c.fld (R.PAR_CTRL p) F.PAR_CTRL_DIES) + fat F.PAR_DIE_MODE (c.mode p)
    | none => 0
  let w := w + fat F.PAR_DIE_FENCED (b2n (c.dieFenced d))
    + fat F.PAR_DIE_KX880 (c.fld (R.FAB_CTRL d) F.FAB_CTRL_KX880)
    + fat F.PAR_DIE_FIXLAT (c.fld (R.FAB_CTRL d) F.FAB_CTRL_FIXLAT)
  c.setReg (R.PAR_DIE d) (wNat w)

/-- Bring every derived partition register up to date. -/
def Chip.sync (c : Chip) : Chip :=
  let c := (List.range 4).foldl (fun c p => if c.parEn p then c.syncPart p else c) c
  (List.range 4).foldl Chip.syncDie c

/-- Take on the degraded condition (R38): DEGRADED is set and the event raised, once. -/
def Chip.degrade (c : Chip) (p : Nat) : Chip :=
  if c.flag (R.PAR_STATUS p) F.PAR_STATUS_DEGRADED then c
  else (c.setFld (R.PAR_STATUS p) F.PAR_STATUS_DEGRADED 1).raise (107 + p)

/-- Degrade the partition of a die when it is in a SAFE mode (R38). -/
def Chip.degradeDie (c : Chip) (d : Nat) : Chip :=
  match c.partOf d with
  | some p => if c.safePart p then c.degrade p else c
  | none => c

/-- R168, R476: TIMING_VOID of a FIXLAT partition, with the degraded condition in a SAFE mode. -/
def Chip.timingVoid (c : Chip) (p : Nat) : Chip :=
  let c1 := c.setFld (R.PAR_STATUS p) F.PAR_STATUS_TIMING_VOID 1
  if c1.safePart p then c1.degrade p else c1

/-- Is FIXLAT in force on a die (R209)? -/
def Chip.fixlat (c : Chip) (d : Nat) : Bool := c.flag (R.FAB_CTRL d) F.FAB_CTRL_FIXLAT

/-- R432: SAFE_A and SAFE_B follow whether a partition is in a SAFE mode and the module is not HALTED. -/
def Chip.driveSafe (c : Chip) : Chip :=
  let on := !c.faults.halted && (List.range 4).any fun p => c.parEn p && c.safePart p
  { c with pins := { c.pins with safeA := on, safeB := !on } }

/-- Outcome helper: a next state with another chip. -/
def State.withChip (s : State) (c : Chip) : State := { s with chip := c }

/-- The outcome of a command. -/
abbrev Out := Host.Outcome State Fault Refusal

/-- Answer the next state in which the module is `c` and the stored words are unchanged. -/
def State.goChip (s : State) (c : Chip) : Out := .next { s with chip := c }

/-- Answer the next state with a new module and new stored words. -/
def State.goBoth (s : State) (c : Chip) (m : Memory) : Out := .next { s with chip := c, mem := m }

end Sys2Proof.Machine
end

