-- ==== Sys2Proof/Machine/Access.lean ====
section
/-! DEFINITION. Machine/Access.lean: where an address lies (R19, R157, R158, R213), who may reach it (R20, R30, R35, R184,
R221, R223, R228, R482, R484) and the read and write of one stored word with its check (R329-R333, R346). -/

namespace Sys2Proof.Machine

/-- Response status of a piece (Table 7.3). -/
inductive Resp where
  | okay | default | uce | abort
  deriving DecidableEq, Repr

/-- The code of a response status. -/
def respCode : Resp → Nat
  | .okay => 0
  | .default => 1
  | .uce => 2
  | .abort => 3

/-- A place of the physical address map (Table 1.7), or an entry of a tile's commit buffer (Table 12.2). -/
inductive Loc where
  | dram (d off : Nat)
  | scratch (d off : Nat)
  | hub (off : Nat)
  | den (core off : Nat)
  | reg (addr : Nat)
  | commit (tile entry : Nat)
  | nowhere
  deriving DecidableEq, Repr

/-- R19, Table 1.7: decode a physical address. -/
def locate (a : Nat) : Loc :=
  if a < 0x4000000000 then
    if a % 0x1000000000 < 0xB70000000 then .dram (a / 0x1000000000) (a % 0x1000000000) else .nowhere
  else if a / 0x100000000000 = 4 then
    let x := a - 0x400000000000
    if x < 0x40000000 ∧ x % 0x10000000 < 0x06000000 then .scratch (x / 0x10000000) (x % 0x10000000) else .nowhere
  else if a / 0x100000000000 = 5 then
    if a - 0x500000000000 < 0x1000000 then .hub (a - 0x500000000000) else .nowhere
  else if a / 0x100000000000 = 6 then
    let x := a - 0x600000000000
    let d := x / 0x1000000
    let cl := x / 0x100000 % 16
    let k := x / 0x20000 % 8
    let off := x % 0x20000
    if d < 4 ∧ cl < 12 ∧ k < 3 then .den (3 * (12 * d + cl) + k) off
    else if d = 0xE ∧ cl = 0 ∧ k < 2 ∧ off < 0x10000 then .den (144 + k) off
    else .nowhere
  else if a / 0x100000000000 = 7 then .reg a
  else .nowhere

/-- The Den window address of a core (Table 1.7). -/
def denBase (core : Nat) : Nat :=
  if core < 144 then
    0x600000000000 + core / 36 * 0x1000000 + core / 3 % 12 * 0x100000 + core % 3 * 0x20000
  else 0x60000E000000 + (core - 144) * 0x20000

/-- The retired and effective page entry that holds a domain offset (R184, R187). -/
def Chip.pageRetired (c : Chip) (d page : Nat) : Bool :=
  (c.dom d).retire.any fun e => e.2.1 == page && !e.2.2

/-- R179: does a swap-only of physical channel n run (its granules answer like unpopulated addresses until the switch)? -/
def Chip.swapping (c : Chip) (d n : Nat) : Bool :=
  c.flag (R.RES_SUB_STAT d) F.RES_SUB_STAT_BUSY && !(c.dom d).subCopy && (c.dom d).subTarget == n

/-- The physical channel that serves logical channel `l` (R158, R159, R173: reads during a copy go to the SOURCE). A
FENCED channel, and one that a swap-only replaces, serves nothing. -/
def Chip.physOf (c : Chip) (d l : Nat) : Option Nat :=
  (List.range 64).find? fun n =>
    let st := c.fld (R.RES_PCH d n) F.RES_PCH_STATE
    c.fld (R.RES_PCH d n) F.RES_PCH_LOGICAL == l && (st == 0 || st == 3) && !c.swapping d n

/-- The spare that mirrors writes of a logical channel during a copy (R173). -/
def Chip.copyOf (c : Chip) (d l : Nat) : Option Nat :=
  (List.range 64).find? fun n =>
    c.fld (R.RES_PCH d n) F.RES_PCH_LOGICAL == l && c.fld (R.RES_PCH d n) F.RES_PCH_STATE == 2

/-- R158: logical channel of a domain offset. -/
def chanOf (off : Nat) : Nat := off / 64 % 61

/-- R158: channel-local granule of a domain offset. -/
def localOf (off : Nat) : Nat := off / 64 / 61

/-- R158: bank of a channel-local granule. -/
def bankOf (q : Nat) : Nat :=
  let r := q / 512
  nxor (q / 16 % 32) (nxor (r % 32) (nxor (r / 32 % 32) (r / 1024 % 32)))

/-- Key of a byte of physical channel n, granule q of domain d. -/
def dramKey (d n q b : Nat) : Nat := d * 2 ^ 36 + n * 0x30000000 + q * 64 + b

/-- Location code of a DRAM word at bank level (R8). -/
def dramLoc (d n bank bitNo : Nat) : Nat :=
  d * 2 ^ 28 + (if n < 32 then 0xC else 0xD) * 2 ^ 24 + n / 4 % 16 * 2 ^ 20
    + (n % 4 * 1024 + bank) * 2 ^ 8 + bitNo

/-- R214: location code of a scratch word. -/
def scrLoc (d off bitNo : Nat) : Nat :=
  let (_, bank, sub, mac, _) := scrPlace off
  d * 2 ^ 28 + 0xE * 2 ^ 24 + bank / 4 * 2 ^ 20 + (bank % 4 * 0x100 + 4 * sub + mac) * 2 ^ 8 + bitNo

/-- Table 12.14: location code of a Den word. -/
def denLoc (core off bitNo : Nat) : Nat :=
  if core < 144 then
    core / 36 * 2 ^ 28 + core / 3 % 12 * 2 ^ 24 + (0xC + core % 3) * 2 ^ 20 + off / 8192 * 2 ^ 8 + bitNo
  else 0xE2 * 2 ^ 24 + (core - 144) * 2 ^ 20 + off / 8192 * 2 ^ 8 + bitNo

/-- Table 12.14: location code of a hub SRAM word. -/
def hubLoc (off bitNo : Nat) : Nat :=
  0xE9 * 2 ^ 24 + off / 0x100000 * 2 ^ 20 + off % 0x100000 / 8192 * 2 ^ 8 + bitNo

/-- Table 12.14: location code of a commit buffer entry; tile 16n + t of cluster n. -/
def commitLoc (tile entry bitNo : Nat) : Nat :=
  tile / 192 * 2 ^ 28 + tile / 16 % 12 * 2 ^ 24 + tile % 16 * 2 ^ 20 + (0x800 + entry) * 2 ^ 8 + bitNo

/-- Who makes an access: the die of its master (4 is H), the master port number, its partition tag, whether it
carries the secure attribute, whether it is Badger, whether it is a Fox core in supervisor mode, and whether the access is of a piece that
its target port has granted, which a wipe that starts afterwards does not stop (R223). -/
structure Who where
  die : Nat
  port : Nat
  part : Option Nat
  secure : Bool := false
  badger : Bool := false
  fox : Bool := false
  sup : Bool := false
  dma : Option Nat := none
  debug : Bool := false
  granted : Bool := false
  deriving DecidableEq, Repr

/-- The Fox port of a cluster as a master (Table 7.1). -/
def foxWho (c : Chip) (cl : Nat) (sup : Bool) : Who :=
  { die := cl / 12, port := 0x60 + cl % 12, part := c.partOf (cl / 12), fox := true, sup := sup }

/-- Badger as a master: always secure (Table 8.3). -/
def badgerWho : Who := { die := 4, port := 0, part := none, secure := true, badger := true, sup := true }

/-- A tile-pair port as a master. -/
def tileWho (c : Chip) (cl pair : Nat) : Who :=
  { die := cl / 12, port := 8 * (cl % 12) + pair, part := c.partOf (cl / 12) }

/-- A hub DMA channel as a master (R192, R221). -/
def dmaWho (ch tag : Nat) (sec : Bool) : Who :=
  { die := 4, port := 1 + ch, part := some tag, secure := sec, dma := some ch }

/-- A debug session as a master: the secure attribute at DL3 (Table 8.3). -/
def debugWho (p : Nat) (sec : Bool) : Who :=
  { die := 4, port := 0, part := some p, secure := sec, debug := true }

/-- Where a piece ends: a stored word with its key and folded address, a register, the default target of a die, or
ABORT on a fenced path. -/
inductive Route where
  | word (key fold : Nat) (loc : Loc)
  | register (addr : Nat)
  | deflt (die : Nat)
  | abort
  deriving DecidableEq, Repr

/-- The link endpoint of die `d` toward ring neighbour or hub (R210 numbering): 0 up, 1 down, 2 H. -/
def endpointTo (d e : Nat) : Nat := if e = 4 then 2 else if e = (d + 1) % 4 then 0 else 1

/-- R200: the dies a request passes from die `d` to die `e`, `d` excluded. -/
def pathDies (c : Chip) (d e : Nat) : List Nat :=
  if d = e then []
  else if d = 4 ∨ e = 4 then [e]
  else if (d + 2) % 4 = e then
    if c.partOf ((d + 1) % 4) = c.partOf d then [(d + 1) % 4, e] else [(d + 3) % 4, e]
  else [e]

/-- Is the link of a hop wholly fenced (R203)? Endpoints on H are numbered by die. -/
def Chip.linkFenced (c : Chip) (d e : Nat) : Bool :=
  if d = 4 then c.flag (R.FAB_LINK_STAT 4 e) F.FAB_LINK_STAT_FENCED
  else c.flag (R.FAB_LINK_STAT d (endpointTo d e)) F.FAB_LINK_STAT_FENCED

/-- Does the path of dies from `d` cross a fenced link? -/
def Chip.pathFenced (c : Chip) (d : Nat) : List Nat → Bool
  | [] => false
  | e :: r => c.linkFenced d e || Chip.pathFenced c e r

/-- May `w` reach memory or registers of compute die `e` (R30, R35, R484, FENCE_DIE in Table 13.8)? -/
def Chip.mayReach (c : Chip) (w : Who) (e : Nat) : Bool :=
  match c.partOf e with
  | none => false
  | some p => (w.badger || w.part == some p) && !c.dieFenced e

/-- Table 8.9: may `w` reach the hub SRAM offset? -/
def Chip.hubAllowed (c : Chip) (w : Who) (off : Nat) (write : Bool) : Bool :=
  if w.badger then
    !(write && decide (off < 0x400000) && c.flag R.HUB_BOOT_STAT F.HUB_BOOT_STAT_READY)
  else match w.dma with
    | some ch =>
      if ch < 3 then decide (0x800000 ≤ off) && decide (off < 0xC00000)
      else if ch < 6 then decide (0xC00000 ≤ off)
      else decide (0x800000 ≤ off)
    | none =>
      match w.part with
      | some p => w.fox && w.sup && decide (0x600000 + p * 0x40000 ≤ off)
          && decide (off < 0x600000 + (p + 1) * 0x40000)
      | none => false

/-- R169: is the stack of physical channel n of domain d in self-refresh or unpowered, so that it answers no request? -/
def Chip.stackOff (c : Chip) (d n : Nat) : Bool := c.fld (R.MEM_STAT (2 * d + n / 32)) F.MEM_STAT_PSTATE != 0

/-- R169: does no answer come to an access, since its DRAM word lies in a stack that answers no request? -/
def Chip.silent (c : Chip) (w : Who) (a : Nat) : Bool :=
  match locate (a / 8 * 8) with
  | .dram d off => c.mayReach w d && !c.pathFenced w.die (pathDies c w.die d) && !c.pageRetired d (off / 65536)
      && (match c.physOf d (chanOf off) with | some n => c.stackOff d n | none => false)
  | _ => false

/-- Route one word's access of `w` (R19, R20, R35, R184, R221, R223, R228, R203). DEDUCED (log 76): a partition's DMA reaches the Dens of its own
dies alone. An access that a stack would not answer has no other outcome here than the default target's (log 79). -/
def Chip.route (c : Chip) (w : Who) (a : Nat) (write : Bool) : Route :=
  match locate (a / 8 * 8) with
  | .nowhere => .deflt w.die
  | .commit _ _ => .deflt w.die
  | .dram d off =>
    if !c.mayReach w d then .deflt w.die
    else if c.pathFenced w.die (pathDies c w.die d) then .abort
    else if c.pageRetired d (off / 65536) then .deflt d
    else match c.physOf d (chanOf off) with
      | none => .deflt d
      | some n => if c.stackOff d n then .deflt d else .word (dramKey d n (localOf off) (off % 64)) (off / 8) (.dram d off)
  | .scratch d off =>
    if !c.mayReach w d then .deflt w.die
    else if c.pathFenced w.die (pathDies c w.die d) then .abort
    else if 0x05F00000 ≤ off ∧ (!w.secure || c.flag (R.SCR_SEC_STAT d) F.SCR_SEC_STAT_WIPING && !w.granted) then .deflt d
    else .word (0x400000000000 + d * 0x10000000 + off) (off / 8) (.scratch d off)
  | .hub off =>
    if !c.hubAllowed w off write then .deflt (if w.fox then w.die else 4)
    else if c.pathFenced w.die (if w.die = 4 then [] else [4]) then .abort
    else .word (0x500000000000 + off) (off / 8) (.hub off)
  | .den k off =>
    let d := if k < 144 then k / 36 else 4
    if !(w.badger || w.dma.isSome) then .deflt w.die
    else if w.dma.isSome && decide (d < 4) && c.partOf d != w.part then .deflt w.die
    else if c.pathFenced w.die (pathDies c w.die d) then .abort
    else .word (denBase k + off) (off / 8) (.den k off)
  | .reg addr =>
    match regDecode addr with
    | none => .deflt w.die
    | some (_, die, _, _) =>
      let d := if die ≤ 3 then die else 4
      if !(w.badger || (w.dma.isNone && decide (die ≤ 3) && c.mayReach w die)) then .deflt w.die
      else if c.pathFenced w.die (pathDies c w.die d) then .abort
      else .register addr

/-- The fault status inst whose checker guards a place (Table 13.1, Table 12.14). -/
def locInst : Loc → Nat
  | .dram d _ => 53 + 7 * d
  | .scratch d _ => 48 + 7 * d
  | .hub _ => 85
  | .den k _ => if k < 144 then k / 3 else 78
  | .commit t _ => t / 16
  | _ => 90

/-- Location code of a stored word (R8, R214, R527); `bitNo` is 0xFF for an uncorrectable word. -/
def Chip.locCode (c : Chip) (l : Loc) (bitNo : Nat) : Nat :=
  match l with
  | .dram d off => dramLoc d ((c.physOf d (chanOf off)).getD 0x3F) (bankOf (localOf off)) bitNo
  | .scratch d off => scrLoc d off bitNo
  | .hub off => hubLoc off bitNo
  | .den k off => denLoc k off bitNo
  | .commit t e => commitLoc t e bitNo
  | _ => 0xFFFFFFFF

/-- Does an open bypass window cover the word (R346)? Its pattern then. -/
def Chip.bypass (c : Chip) (l : Loc) : Option Nat :=
  let look (d : Nat) (scr : Bool) (page : Nat) : Option Nat :=
    let w := c.reg (R.ECC_BP_CTRL d)
    if fget w F.ECC_BP_CTRL_EN = 1 ∧ (fget w F.ECC_BP_CTRL_SCRATCH = 1 ↔ scr = true)
        ∧ fget w F.ECC_BP_CTRL_PAGE = page
    then some (c.fld (R.ECC_BP_CHECK d) F.ECC_BP_CHECK_PATTERN) else none
  match l with
  | .dram d off => look d false (off / 65536)
  | .scratch d off => look d true (off / 65536)
  | _ => none

/-- What a checked read of a stored word found (R331), to be recorded. -/
structure Hit where
  loc : Loc
  out : CodeOut
  syn : Nat
  deriving DecidableEq, Repr

/-- One stored word as the checker reads it: status, delivered word and what was found. A word never written is
uncorrectable (R422), and its data are open. -/
structure WordRead where
  resp : Resp
  data : Nat
  hit : Option Hit
  deriving DecidableEq, Repr

/-- An uncorrectable syndrome (Table 12.3) that nothing constrains: the check bits of a word that was never written are open (R334). -/
def freeBadSyn (n : Nat) : Nat :=
  let l := (List.range 256).filter fun s => synDecode s == .bad
  l.getD (Config.freeNat n % l.length) 3

/-- R224: does the raw-macro window write the word at `key` in this cycle? -/
def Chip.rawClash (c : Chip) (l : Loc) (key : Nat) : Bool :=
  match l with
  | .scratch _ _ => c.rawAt == some (key, c.now)
  | _ => false

/-- R224, R226: a wrapper read of a word that the raw-macro window writes in the same cycle: the data are undefined, and the checker judges
what it is given. -/
def clashRead (n : Nat) (l : Loc) : WordRead :=
  let sy := Config.freeNat n % 256
  ⟨if synDecode sy == .bad then .uce else .okay, (Config.freeWord n).toNat, some ⟨l, synDecode sy, sy⟩⟩

/-- R331: read and check the word at a key. -/
def readStored (c : Chip) (m : Memory) (key fold : Nat) (l : Loc) : WordRead :=
  if c.rawClash l key then clashRead (c.freeCtr + key) l
  else match memChk m key with
  | none => ⟨.uce, (Config.freeWord (c.freeCtr + key)).toNat, some ⟨l, .bad, freeBadSyn (c.freeCtr + key)⟩⟩
  | some chk =>
    let d := memWord m key
    let sy := syndrome d chk fold
    match synDecode sy with
    | .clean => ⟨.okay, d, some ⟨l, .clean, 0⟩⟩
    | .bad => ⟨.uce, d, some ⟨l, .bad, sy⟩⟩
    | o => ⟨.okay, delivered d o, some ⟨l, o, sy⟩⟩

/-- Store a whole word with its check bits, altered inside an open bypass window (R330, R346), and mirrored to the
spare during a copy (R173). A write of the raw-macro window in the same cycle remains (R224). -/
def writeStored (c : Chip) (m : Memory) (key fold : Nat) (l : Loc) (data : Nat) (whole : Bool) : Memory :=
  if c.rawClash l key then m else
  let chk := codeCheck data fold
  let chk := match (if whole then c.bypass l else none) with
    | some p => nxor chk p
    | none => chk
  let m1 := memPutWord m key data chk
  match l with
  | .dram d off =>
    match c.copyOf d (chanOf off) with
    | some n => memPutWord m1 (dramKey d n (localOf off) (off % 64)) data chk
    | none => m1
  | _ => m1

/-- Bytes enabled by a mask, low byte first, merged over a word (R74, R217). -/
def mergeMask (old new mask : Nat) : Nat :=
  natLE ((List.range 8).map fun i =>
    BitVec.ofNat 8 ((if bit mask i then new else old) / 2 ^ (8 * i)))

/-- Write a word or part of it: a whole word is stored, a part is read, merged and written (R74, R217); an
uncorrectable merge leaves the word and answers UCE (R333). -/
def writeWord (c : Chip) (m : Memory) (key fold : Nat) (l : Loc) (data mask : Nat) :
    Memory × Resp × Option Hit :=
  if mask % 256 = 255 then (writeStored c m key fold l data true, .okay, none)
  else
    let r := readStored c m key fold l
    match r.resp with
    | .uce => (m, .uce, r.hit)
    | _ => (writeStored c m key fold l (mergeMask r.data data mask) false, .okay, r.hit)

end Sys2Proof.Machine
end

