-- ==== Sys2Proof/Machine/Views.lean ====
section
/-! DEFINITION. Machine/Views.lean: what a read of a register answers. Most registers answer the word they hold; a
register that reports typed state (the mailboxes, the cores, the tables behind an index, counts that age) is composed
here when it is read, so every piece of state has one home. A WO field reads 0 (Table 0.2). -/

namespace Sys2Proof.Machine

/-- The longest span that counts as recent (R304, R306, R315): 10^9 cycles of the island. -/
def recentSpan : Nat := 1000000000

/-- How many listed cycle values are less than 10^9 cycles old. -/
def recentCount (now : Nat) (l : List Nat) : Nat := (l.filter fun x => decide (now < x + recentSpan)).length

/-- Words of a mailbox's staging area in use (R402). DESIGN CHOICE: of the command being received at most 15 words take room,
the greatest header and LEN of a command that needs all its words before its checks: the data of a CMD_MEM_WRITE go on to hub
DMA (R421), and the words of a duplicate or of a rejected command are consumed (R407, R408). -/
def Chip.staged (c : Chip) (ch : Nat) : Nat :=
  min 15 (c.mbx ch).partialWords.length
    + ((c.queues.waiting.filter fun e => e.ready && e.cmd.chain == ch).map fun e => 2 + e.cmd.params.length).sum

/-- MBX_CMD_STAT.FREE (Table 15.1). -/
def Chip.mbxFree (c : Chip) (ch : Nat) : Nat := 262144 - c.staged ch

/-- Words posted and not yet popped; the staging area shows at most 262,144 of them (Table 15.1). -/
def Mbx.avail (b : Mbx) : Nat := min 262144 (b.rspQ.map List.length).sum

/-- Word 0 of the response that holds the next word to pop, or of the last response. -/
def Mbx.nextHead (b : Mbx) : Word :=
  if b.mid then b.curHead
  else match b.rspQ with
    | (w :: _) :: _ => w
    | _ => b.curHead

/-- A mailbox register as it reads (Table 15.1). -/
def Mbx.view (b : Mbx) (free off : Nat) : Word :=
  match off with
  | 0x08 => wNat (fat F.MBX_CMD_STAT_ACCEPT (b2n b.accept) + fat F.MBX_CMD_STAT_FRAMING (b2n b.framing)
      + fat F.MBX_CMD_STAT_EXP_VALID (b2n b.expValid) + fat F.MBX_CMD_STAT_EXPECT b.expect
      + fat F.MBX_CMD_STAT_FREE free)
  | 0x10 => wNat (fat F.MBX_CMD_CTRL_NOTIFY_EN (b2n b.notifyEn))
  | 0x18 => wNat (fat F.MBX_RSP_HEAD_READY (b2n (b.avail != 0)) + fat F.MBX_RSP_HEAD_MID (b2n b.mid)
      + fat F.MBX_RSP_HEAD_AVAIL b.avail
      + fat F.MBX_RSP_HEAD_TAG (bits b.nextHead.toNat 47 32) + fat F.MBX_RSP_HEAD_RSEQ (bits b.nextHead.toNat 31 16))
  | 0x28 => wNat (fat F.MBX_RSP_POS_RSEQ (bits b.curHead.toNat 31 16) + fat F.MBX_RSP_POS_KEPT b.kept.length
      + fat F.MBX_RSP_POS_WIDX b.widx)
  | 0x38 => wNat (fat F.MBX_EVT_HEAD_READY (b2n (b.evtQ.length != 0)) + fat F.MBX_EVT_HEAD_LOST (b2n b.evtLost)
      + fat F.MBX_EVT_HEAD_COUNT b.evtQ.length
      + fat F.MBX_EVT_HEAD_ESEQ (match b.evtQ with | w :: _ => bits w.toNat 47 32 | [] => b.eseq))
  | _ => 0#64

/-- FOX_STAT.RUN code (Table 19.6); 3 is a debug halt of the cluster. -/
def runCode : RunState → Nat
  | .held => 0
  | .executing => 1
  | .stalled => 2
  | .stopped => 4
  | .fenced => 5

/-- EREC as the register reads (Table 10.7). -/
def erecWord (l : List ErecEntry) : Nat :=
  let rec go : List ErecEntry → Nat → Nat
    | [], _ => 0
    | e :: r, j => e.ctx % 16 * 2 ^ (16 + 4 * j) + b2n e.sup * 2 ^ (8 + j) + go r (j + 1)
  go l 0 + l.length

/-- FOX_STAT of a core (Table 19.6). -/
def Core.statWord (x : Core) : Word :=
  wNat (fat F.FOX_STAT_RUN (runCode x.run) + fat F.FOX_STAT_PRIV (b2n x.sup) + fat F.FOX_STAT_EXC (b2n x.exc)
    + fat F.FOX_STAT_CRIT (b2n x.critEnd.isSome) + fat F.FOX_STAT_ESC (b2n x.escActive)
    + fat F.FOX_STAT_CTX x.cur + fat F.FOX_STAT_DEPTH x.erec.length)

/-- The home of the blocks of a stream on the tiles of a cluster: units in service (R72), tile pairs in the SAFE modes
and single tiles otherwise. -/
def Chip.unitsOf (c : Chip) (cl : Nat) : List Nat :=
  if c.cluFenced cl then []
  else if isSafe (c.cluMode cl) then c.pairsInService cl
  else (List.range 16).filter fun t => !c.tileFenced cl t

/-- The unit number of tile t in the deal (Table 19.7). -/
def Chip.unitNo (c : Chip) (cl t : Nat) : Option Nat :=
  let u := if isSafe (c.cluMode cl) then t / 2 else t
  (c.unitsOf cl).findIdx? fun x => x == u

/-- Retirement map slot as RES_RET_DATA reads (Table 6.9); a slot whose VALID is 0 still reads its PAGE. -/
def Chip.retWord (c : Chip) (d i : Nat) : Word :=
  match mget? (c.dom d).retire i with
  | some (page, pend) => wNat (2 ^ 63 + b2n pend * 2 ^ 62 + page)
  | none => wNat (mget 0 (c.dom d).retOld i)

/-- Repeat-correct table slot as HOG_RCT_DATA reads (Table 12.12). -/
def Chip.rctWord (c : Chip) (d i : Nat) : Word :=
  let e := mget {} (c.dom d).rct i
  wNat (fat F.HOG_RCT_DATA_STATE e.state + fat F.HOG_RCT_DATA_SCRATCH (b2n e.scratch)
    + fat F.HOG_RCT_DATA_COUNT (min e.count 7) + fat F.HOG_RCT_DATA_REC (b2n e.recd)
    + fat F.HOG_RCT_DATA_REC_KIND e.recKind + fat F.HOG_RCT_DATA_BIT e.bitNo + fat F.HOG_RCT_DATA_WADDR e.waddr)

/-- A slot that counts as in flight (R55). -/
def Slot.inFlight (x : Slot) : Bool := x.state == .waiting || x.state == .running

/-! ### Hazards (R77-R79) and fences (R82) -/

/-- Two spans share a granule. -/
def Span.meets (a b : Span) : Bool := decide (a.lo < b.hi) && decide (b.lo < a.hi)

/-- Does a waiting stream conflict with an older one (R78)? -/
def Slot.blocks (old new : Slot) : Bool :=
  old.inFlight && decide (old.order < new.order)
    && (old.writes.any (fun o => new.reads.any o.meets || new.writes.any o.meets)
      || match old.hull with
         | some h => new.writes.any h.meets
         | none => false)

/-- Does a fence stand between two streams? -/
def Cluster.fenced (x : Cluster) (old new : Slot) : Bool :=
  old.inFlight && decide (old.order < new.order) && x.fences.any fun f => decide (old.order < f) && decide (f ≤ new.order)

/-- Does stream `new` wait on stream `old`? -/
def Cluster.waitsOn (x : Cluster) (old new : Slot) : Bool := old.blocks new || x.fenced old new

/-- Does an accepted stream not start yet because of a hazard or a fence (AGU_ISSUE_STAT.WAITING, Table 3.10)? -/
def Cluster.held (x : Cluster) (s : Slot) : Bool := s.state == .waiting && x.slots.any fun e => x.waitsOn e.2 s

/-- R448: the burned groups of the fuse field LC (three fuses a group, two of three burned), bit k - 1 for group k. -/
def lcGroups (raw : Nat) : Nat := maskOf ((List.range 5).filter fun k => decide (2 ≤ popcount 3 (raw / 2 ^ (3 * k))))

/-- R448: the life-cycle state that the burned groups give. -/
def lcStateOf (raw : Nat) : Nat :=
  let g := lcGroups raw
  if bit g 4 then 5
  else if !bit g 0 then 0 else if !bit g 1 then 1 else if !bit g 2 then 2 else if !bit g 3 then 3 else 4

/-- The word a read of register `a` answers. -/
def Chip.readReg (c : Chip) (a : Nat) : Word :=
  match regDecode a with
  | none => 0#64
  | some (d, die, i, k) =>
    let w := c.reg a
    let cl := 12 * die + i
    match d.block with
    | 0x01 =>
      if d.off = 0x08 then wNat c.hubCycle
      else if d.off = 0x10 then
        if fget w F.HUB_BOOT_STAT_STAGE < 0xA
        then fput w F.HUB_BOOT_STAT_READY_MS ((c.now - c.resetAt) / 1000000) else w
      else if d.off = 0x00 then wNat (0x1640 * 2 ^ 48 + c.fuses.variant * 2 ^ 40 + c.fuses.stepping * 2 ^ 32)
      else fput (fput w F.HUB_SVC_STAT_SMBUS_ADDR (0x58 + c.pins.slotId)) F.HUB_SVC_STAT_SLOT_ID c.pins.slotId
    | 0x02 => (c.mbx i).view (c.mbxFree i) d.off
    | 0x03 =>
      if d.off = 0x410 then wNat (c.fuses.serial / 2 ^ (64 * k))
      else if d.off = 0x08 then fput w F.LNK_STAT_UNACKED (min 64 (c.port i).retry.length)
      else w
    | 0x04 =>
      if d.off = 0x00 then wNat (fat F.SEC_LC_LC_GROUPS (lcGroups c.fuses.lc) + fat F.SEC_LC_MIN_SVN (popcount 64 c.fuses.minSvn)
        + fat F.SEC_LC_STATE (fget w F.SEC_LC_STATE))
      else if d.off = 0x08 ∧ 2 ≤ c.fld R.SEC_LC F.SEC_LC_STATE then fput w F.SEC_TAMPER_CTRL_ARM 1
      else w
    | 0x05 =>
      if d.off = 0x00 then
        let w := fput w F.DBG_STAT_LOCK_REMAIN (match c.sec.lockEnd with
          | some t => (t - c.now + 999999999) / 1000000000 | none => 0)
        fput (fput (fput w F.DBG_STAT_LC_STATE (c.fld R.SEC_LC F.SEC_LC_STATE)) F.DBG_STAT_TAMPERED
          (c.fld R.SEC_TAMPER_STAT F.SEC_TAMPER_STAT_LATCHED)) F.DBG_STAT_LOCKED (b2n c.sec.lockEnd.isSome)
      else match mget? c.sec.nonces k with
        | some (_, _, t) => fput (fput w F.DBG_SESSION_NONCE 1) F.DBG_SESSION_NONCE_AGE (min 60 ((c.now - t) / 1000000000))
        | none => w
    | 0x10 =>
      let x := c.core (3 * cl + k)
      if d.off = 0x40 then
        if (c.clu cl).haltAt.isSome && (x.run == .executing || x.run == .stalled) then fput x.statWord F.FOX_STAT_RUN 3
        else x.statWord
      else if d.off = 0x48 then wNat x.lastPc
      else if d.off = 0x50 then wNat x.retired
      else if d.off = 0x58 then
        wNat (fat F.FOX_TRAP_CAUSE x.cause + fat F.FOX_TRAP_IMPRECISE (b2n x.causeImp)
          + fat F.FOX_TRAP_REASON (bits x.escState.toNat 15 8))
      else w
    | 0x11 =>
      if d.off = 0x08 then
        fput w F.OWL_STAT_STOP_COUNT (min 2 (recentCount (c.cluCycle cl) (c.clu cl).stopHist))
      else if d.off = 0x10 then
        fput w F.OWL_CORE_RESYNC_RECENT (min 2 (recentCount (c.cluCycle cl) (mget [] (c.clu cl).resyncHist k)))
      else w
    | 0x12 =>
      if d.off = 0x1A00 then
        let w1 := fput w F.TIL_TILE_STAT_FENCED (b2n (c.tileFenced cl k))
        let u := if c.cluMode cl = 0 then 0xFF else (c.unitNo cl k).getD 0xFF
        fput (fput w1 F.TIL_TILE_STAT_UNIT u) F.TIL_TILE_STAT_IN_SERVICE (b2n (c.unitNo cl k).isSome)
      else w
    | 0x14 =>
      if d.off = 0x08 then
        let sl := (c.clu cl).slots
        fput (fput w F.AGU_ISSUE_STAT_WAITING (sl.filter fun e => (c.clu cl).held e.2).length)
          F.AGU_ISSUE_STAT_IN_FLIGHT (sl.filter fun e => e.2.inFlight).length
      else if d.off = 0x00 then
        let oop := b2n (isSafe (c.dieMode die))
        let w1 := fput w F.AGU_CTRL_OOP oop
        if oop = 1 then fput (fput w1 F.AGU_CTRL_RNG_EN 1) F.AGU_CTRL_STORE_CHK 1 else w1
      else w
    | 0x15 =>
      if d.off = 0x00 then
        let n := 192 * die + i
        let cn := n / 16
        let t := n % 16
        let w1 := fput (fput w F.CMT_STAT_D0_WINDOWS ((c.tile n).wins.filter fun x => x.dest == 0).length)
          F.CMT_STAT_D1_WINDOWS ((c.tile n).wins.filter fun x => x.dest == 1).length
        let w2 := fput w1 F.CMT_STAT_PAIRED
          (b2n (isSafe (c.dieMode die) && (c.pairsInService cn).contains (t / 2)))
        if t % 2 = 0 then
          fput w2 F.CMT_STAT_MISMATCH_RECENT (min 2 (recentCount (c.cluCycle cn) (mget [] (c.clu cn).pairHist (t / 2))))
        else w2
      else w
    | 0x18 =>
      if d.off = 0x18 then c.retWord die (c.fld (R.RES_RET_IDX die) F.RES_RET_IDX_INDEX)
      else if d.off = 0x20 then wNat (c.dom die).retire.length
      else w
    | 0x1B =>
      if d.off = 0x20 then c.rctWord die (c.fld (R.HOG_RCT_IDX die) F.HOG_RCT_IDX_INDEX)
      else if d.off = 0x28 then
        fput (fput w F.HOG_RCT_STAT_USED ((c.dom die).rct.filter fun e => e.2.state != 0).length)
          F.HOG_RCT_STAT_SUSPECTS ((c.dom die).rct.filter fun e => e.2.state == 2).length
      else w
    | 0x1C =>
      if d.off = 0x08 then
        let n := if die = 0xE then 76 + i else if i < 12 then 12 * die + i else 48 + 7 * die + (i - 12)
        fput w F.FLT_INFO_QUAR (b2n (c.faults.quar.any fun b => b.1 / 0x10000 == n && c.quarantined b.1))
      else w
    | _ => w

end Sys2Proof.Machine
end

