-- ==== Sys2Proof/Machine/Mail.lean ====
section
/-! DEFINITION. Machine/Mail.lean: posting responses, completions and event words to the mailboxes (R407, R409, R414, R417,
R419, R423, R424, R425). -/

namespace Sys2Proof.Machine

/-! Status codes (Table 15.4). -/

namespace St
def ok : Nat := 0x00
def opcode : Nat := 0x01
def param : Nat := 0x02
def notOwner : Nat := 0x03
def busy : Nat := 0x04
def illegalState : Nat := 0x05
def power : Nat := 0x06
def resource : Nat := 0x07
def aborted : Nat := 0x08
def framing : Nat := 0x09
def memory : Nat := 0x0A
def auth : Nat := 0x0B
def discarded : Nat := 0x10
def streamFault : Nat := 0x11
def range : Nat := 0x12
def descriptor : Nat := 0x13
end St

/-- MODE of a response to a module-scope command (Table 15.3). -/
def Chip.moduleMode (c : Chip) : Nat := if c.faults.halted then 7 else if c.mgmt.started then 6 else 0

/-- The mailbox with one response posted: it queues behind the others and takes the next RSEQ; a rise of AVAIL from 0
asks for a NOTIFY frame (R425). -/
def Mbx.post (b : Mbx) (kind status tag op part word1 : Nat) (data : List Word) : Mbx :=
  let w0 := 0xA * 2 ^ 60 + kind * 2 ^ 56 + status * 2 ^ 48 + tag % 2 ^ 16 * 2 ^ 32 + b.rseq * 2 ^ 16 + op * 2 ^ 8
    + part % 4 * 2 ^ 6
  { b with
    rspQ := b.rspQ ++ [[wNat w0, wNat (word1 + data.length % 2 ^ 32)] ++ data],
    rseq := (b.rseq + 1) % 65536,
    notify := b.notify || (b.notifyEn && b.avail == 0) }

/-- Word 1 of a response without LEN (Table 15.3): partition form or module form. -/
def Chip.rspWord1 (c : Chip) (cseq : Nat) (dup modForm : Bool) (part : Nat) : Nat :=
  let st := c.reg (R.PAR_STATUS part)
  cseq % 2 ^ 16 * 2 ^ 48 + b2n dup * 2 ^ 43
    + (if modForm then c.moduleMode * 2 ^ 38
       else fget st F.PAR_STATUS_FENCED * 2 ^ 42 + fget st F.PAR_STATUS_DEGRADED * 2 ^ 41
        + fget st F.PAR_STATUS_MODE * 2 ^ 38)

/-- The duplicate's response (R407): status of the original and its first data word. -/
def Chip.postDup (c : Chip) (cmd : Cmd) (a : Nat × Option Word) : Chip :=
  let part := if cmd.mod then 0 else cmd.part
  c.setMbx cmd.chain ((c.mbx cmd.chain).post 0 a.1 cmd.tag cmd.op part
    (c.rspWord1 cmd.cseq true cmd.mod part) a.2.toList)

/-- Answer a command on the chain that sent it (R414), note the answer in the chain's history (R407) and answer the
duplicates that wait for it. -/
def Chip.respond (c : Chip) (cmd : Cmd) (status : Nat) (data : List Word) : Chip :=
  let b := c.mbx cmd.chain
  let part := if cmd.mod then 0 else cmd.part
  let b1 := b.post 0 status cmd.tag cmd.op part (c.rspWord1 cmd.cseq false cmd.mod part) data
  let note := fun (h : Hist) =>
    if h.cseq = cmd.cseq ∧ h.answer = none then { h with answer := some (status, data.head?) } else h
  let waits := b1.dupWait.filter fun d => d.cseq == cmd.cseq
  let c1 := c.setMbx cmd.chain
    { b1 with history := b1.history.map note, dupWait := b1.dupWait.filter fun d => d.cseq != cmd.cseq }
  waits.foldl (fun c d => c.postDup d (status, data.head?)) c1

/-- Queue an event word on a chain (R423, R424): a full queue drops it and sets LOST. -/
def Chip.postEvent (c : Chip) (ch line part : Nat) (pvalid : Bool) (detail : Nat) : Chip :=
  let b := c.mbx ch
  if 4096 ≤ b.evtQ.length then c.setMbx ch { b with evtLost := true, dropped := b.dropped + 1 }
  else
    let w := 0xE * 2 ^ 60 + line * 2 ^ 51 + part % 4 * 2 ^ 49 + b2n pvalid * 2 ^ 48 + b.eseq * 2 ^ 32 + detail % 2 ^ 32
    c.setMbx ch { b with
      evtQ := b.evtQ ++ [wNat w], eseq := (b.eseq + 1) % 65536,
      notify := b.notify || (b.notifyEn && b.evtQ.isEmpty) }

end Sys2Proof.Machine
end

