-- ==== Sys2Proof/Machine/Operands.lean ====
section
/-! DEFINITION. Machine/Operands.lean: the registers of a core as instructions name them, every register write with its
signature record (R294, R295), signature windows (R296), the memory operand forms (R239, R240), and the
loads and stores of a core with the private Den alias, the store buffer and the data cache (R241-R243, R274, R287). -/

namespace Sys2Proof.Machine

/-! ## Registers and signature records -/

/-- The bank key of the current context: its number, or 0xF for the exception bank. -/
def Core.key (x : Core) : Nat := if x.exc then 0xF else x.cur

/-- A bank as a new context has it (R278): all registers 0, RSP at the top of its return stack (R275). -/
def freshBank (k : Nat) : Bank := { rsp := 0x8000 + k * 0x800 + 0x800 }

/-- The bank of a context. -/
def Core.bankOf (x : Core) (k : Nat) : Bank := mget (freshBank k) x.banks k

/-- The current bank. -/
def Core.bank (x : Core) : Bank := x.bankOf x.key

/-- Replace a bank. -/
def Core.setBank (x : Core) (k : Nat) (b : Bank) : Core := { x with banks := mset x.banks k b }

/-- One 64-bit input word of a signature, most significant bit first (R294). -/
def crc64Word (crc w : Nat) : Nat := (List.range 64).foldl (fun c _ => crc64Bit c) (nxor crc (w % 2 ^ 64))

/-- A two-word record into the signature of the open window. -/
def Core.note (x : Core) (w0 w1 : Nat) : Core :=
  { x with win := { x.win with sig := crc64Word (crc64Word x.win.sig w0) w1 } }

/-- Record of a register write (Table 11.2). -/
def Core.noteReg (x : Core) (ctx code v : Nat) : Core :=
  x.note (0x01 * 2 ^ 56 + ctx * 2 ^ 48 + b2n x.sup * 2 ^ 47 + code) v

/-- The value of a general register of the current context. -/
def Core.g (x : Core) (r : Reg) : Word := x.bank.g.get r

/-- The value of the general register with a number. -/
def Core.gN (x : Core) (r : Nat) : Word := x.g (Fin.ofNat 16 r)

/-- The value of a bank register. -/
def Core.bN (x : Core) (n : Nat) : BitVec 32 := x.bank.b.get (Fin.ofNat 8 n)

/-- Write a general register of context `k` (R295). -/
def Core.setGOf (x : Core) (k r : Nat) (v : Word) : Core :=
  (x.setBank k { x.bankOf k with g := (x.bankOf k).g.set (Fin.ofNat 16 r) v }).noteReg k r v.toNat

/-- Write a general register of the current context. -/
def Core.setG (x : Core) (r : Reg) (v : Word) : Core := x.setGOf x.key r.val v

/-- Write a bank register (R232). -/
def Core.setB (x : Core) (n : Fin 8) (v : BitVec 32) : Core :=
  (x.setBank x.key { x.bank with b := x.bank.b.set n v }).noteReg x.key (0x10 + n.val) v.toNat

/-- Write FLAGS: always all four bits (R249). -/
def Core.setFlags (x : Core) (f : Flags) : Core :=
  (x.setBank x.key { x.bank with flags := f }).noteReg x.key 0x18 (flagsNat f)

/-- The 128-bit register Vk. -/
def Core.vget (x : Core) (k : Nat) : Nat := (x.v.get (Fin.ofNat 16 k)).toNat

/-- Write Vk: records for the low and the high half. -/
def Core.setV (x : Core) (k v : Nat) : Core :=
  let x1 := { x with v := x.v.set (Fin.ofNat 16 k) (BitVec.ofNat 128 v) }
  (x1.noteReg x.key (0x20 + k) (v % 2 ^ 64)).noteReg x.key (0x30 + k) (v / 2 ^ 64 % 2 ^ 64)

/-- Write several V registers, each once. Registers are recorded in ascending register code (R294), so the records of all the
low halves come before those of the high halves. -/
def Core.setVs (x : Core) (l : List (Nat × Nat)) : Core :=
  let x1 := { x with v := l.foldl (fun v p => v.set (Fin.ofNat 16 p.1) (BitVec.ofNat 128 p.2)) x.v }
  let x2 := l.foldl (fun x p => x.noteReg x.key (0x20 + p.1) (p.2 % 2 ^ 64)) x1
  l.foldl (fun x p => x.noteReg x.key (0x30 + p.1) (p.2 / 2 ^ 64 % 2 ^ 64)) x2

/-- A special-register change as a record. -/
def Core.noteSp (x : Core) (sp v : Nat) : Core := x.noteReg x.key (0x100 + sp) v

/-- RSP of the current numbered context (R275). -/
def Core.rsp (x : Core) : Nat := (x.bankOf x.cur).rsp

/-- Set RSP of the current numbered context. -/
def Core.setRsp (x : Core) (v : Nat) : Core :=
  (x.setBank x.cur { x.bankOf x.cur with rsp := v }).noteSp 0x002 v

/-- Shadow stack of the current numbered context, newest first (R276). -/
def Core.shadow (x : Core) : List Nat := (x.bankOf x.cur).shadow

/-- Empty the shadow stack; its moves enter no signature (R295). -/
def Core.emptyShadow (x : Core) : Core :=
  x.setBank x.cur { x.bankOf x.cur with shadow := [], inHw := 0 }

/-! ## Windows -/

/-- The close record of the open window (Table 11.2). -/
def Core.closeRec (x : Core) (next : Nat) : Nat × Nat :=
  (0x03 * 2 ^ 56 + next,
   x.win.words % 256 * 2 ^ 48 + x.win.stores % 256 * 2 ^ 40 + b2n x.sup * 2 ^ 12 + x.key * 2 ^ 8
     + flagsNat x.bank.flags)

/-- Close the open window at the next word `next` (R296); the close record enters the signature. -/
def Core.closeWin (x : Core) (next : Nat) (boundary : Bool) : Core :=
  let r := x.closeRec next
  let y := x.note r.1 r.2
  { y with closed := some ⟨y.win, r.1, r.2, boundary⟩, win := {} }

/-- Has the core nothing to decide, release or be acknowledged: no store held and no closed window. -/
def Core.drained (x : Core) : Bool :=
  x.win.buf.isEmpty && x.closed.isNone && x.released.isEmpty && x.win.desc.isNone

/-- Is the open window untouched since it opened? -/
def Core.winFresh (x : Core) : Bool := x.win.words == 0 && x.win.stores == 0

/-- Entries of the window store buffer in use (R297). -/
def Core.buffered (x : Core) : Nat :=
  x.win.buf.length + (match x.closed with | some w => w.win.buf.length | none => 0) + x.released.length

/-- The stores still in the buffer, newest first. -/
def Core.pendingStores (x : Core) : List BufStore :=
  x.win.buf.reverse ++ (match x.closed with | some w => w.win.buf.reverse | none => []) ++ x.released.reverse

/-- A word retires: counts, FOX_PC and PC move (R296: the window closes after its 128th word). -/
def Core.retire (x : Core) (next : Nat) : Core :=
  let y := { x with lastPc := x.pc, pc := next % 2 ^ 48, retired := x.retired + 1, run := .executing, stm := none,
                    win := { x.win with words := x.win.words + 1 } }
  if 128 ≤ y.win.words then y.closeWin (next % 2 ^ 48) true else y

/-- Retire to the next word. -/
def Core.step4 (x : Core) : Core := x.retire (x.pc + 4)

/-- The word stalls and is presented again (Table 19.6, RUN 0b010). -/
def Core.stall (x : Core) : Core := { x with run := .stalled }

/-- May the word run now: a window that it may bring to 128 words can close only when no closed window waits. -/
def Core.mayRun (x : Core) : Bool := !(x.closed.isSome && decide (127 ≤ x.win.words))

/-! ## Effects of a core on the module -/

/-- What a core's access leaves for the rest of the module: an access request that the Owl compares (R293), a checked read, a
DEFAULT answer that FAB_DEFERR latches, an ABORT that discards the job, a store to register space. -/
inductive Eff where
  | request (q : Request)
  | checked (h : Hit) (job : Option Nat) (port : Nat) (badger : Bool)
  | defErr (die : Nat) (w : Who) (write : Bool) (addr : Nat)
  | aborted (job : Option Nat)
  | regStore (who : Who) (addr : Nat) (w : Word)
  | uceJob (job : Option Nat)
  deriving DecidableEq, Repr

/-- Where a core runs: the module as it stands, the core's number, its cluster (none for Badger), whether its accesses
are the ones presented to the matrix (R293), and the job that owns the access, where it is not the one that runs now. -/
structure Env where
  chip : Chip
  key : Nat
  cl : Option Nat
  lead : Bool := true
  owner : Option (Option Nat) := none

/-- Is the core a Fox core? -/
def Env.fox (e : Env) : Bool := e.cl.isSome

/-- The job that owns an access: the one that runs on the core's cluster, or the one that ran when a store was made. -/
def Env.job (e : Env) : Option Nat :=
  match e.owner with
  | some j => j
  | none => e.cl.bind fun n => (e.chip.clu n).job

/-- The core as a master of its matrix. -/
def Env.who (e : Env) (sup : Bool) : Who :=
  match e.cl with
  | some n => foxWho e.chip n sup
  | none => badgerWho

/-- Is the partition of the core's cluster in a SAFE mode? -/
def Env.safe (e : Env) : Bool :=
  match e.cl with
  | some n => isSafe (e.chip.cluMode n)
  | none => false

/-- Bytes of the private Den alias (R242). -/
def Env.denSize (e : Env) : Nat := if e.fox then 0x20000 else 0x10000

/-- The offset of an address in the core's private Den alias (R242). -/
def Env.denOff (e : Env) (a : Nat) : Option Nat :=
  if 0x700000000000 - e.denSize ≤ a ∧ a < 0x700000000000 then some (a - (0x700000000000 - e.denSize)) else none

/-- Hardware-only Den areas: shadow-stack spill and context spill (Table 10.4). -/
def Env.hwArea (e : Env) (off : Nat) : Bool :=
  if e.fox then decide (0xC000 ≤ off) && decide (off < 0x11000)
  else decide (0xA000 ≤ off) && decide (off < 0xC800)

/-- The region of Table 1.7 in whose window an address lies, populated there or not; 18 is no region. -/
def regionOf (a : Nat) : Nat :=
  if a < 0x4000000000 then a / 0x1000000000
  else if a / 0x100000000000 = 4 ∧ a % 0x100000000000 < 0x40000000 then 8 + a % 0x100000000000 / 0x10000000
  else if a / 0x100000000000 = 5 ∧ a % 0x100000000000 < 0x1000000 then 16
  else if a / 0x100000000000 = 6 then
    let x := a % 0x100000000000
    let d := x / 0x1000000
    let cl := x / 0x100000 % 16
    let k := x / 0x20000 % 8
    if d < 4 ∧ cl < 12 ∧ k < 3 then 32 + 3 * (12 * d + cl) + k
    else if d = 0xE ∧ cl = 0 ∧ k < 2 then 32 + 144 + k
    else 18
  else if a / 0x100000000000 = 7 then 17
  else 18

/-- The region an address lies in as the core sees it, for the split check (R287). -/
def Env.region (e : Env) (a : Nat) : Nat := if (e.denOff a).isSome then 0x100 else regionOf a

/-! ## Addresses -/

/-- The 64-bit sum of a memory operand (R239, R240). -/
def memSum (x : Core) : MemOp → Nat
  | .banked n u => (x.bN n.val).toNat * 65536 + u.toNat
  | .based a disp => ((x.g a).toNat + (disp.signExtend 64).toNat) % 2 ^ 64

/-- R240: the address exception when bits [63:48] of the sum are not all 0. -/
def addrOk (sum : Nat) : Bool := decide (sum < 2 ^ 48)

/-- A precise exception: cause and EADDR (Table 10.1). -/
structure Exc where
  cause : Nat
  eaddr : Nat
  deriving DecidableEq, Repr

/-- Is the address one of the issue unit or chain table registers that user mode may not reach (R92, R101)? -/
def userBarred (a : Nat) : Bool :=
  match regDecode a with
  | some (d, _, _, _) => d.block == 0x14 || (d.block == 0x12 && decide (d.off < 0x1A00))
  | none => false

/-- Checks of privilege for one access within a word (R242, R274, R92, R101). -/
def accessExc (e : Env) (x : Core) (a : Nat) (write : Bool) : Option Exc :=
  match e.denOff a with
  | some off =>
    if !x.sup && decide (0x8000 ≤ off) then some ⟨0x03, a⟩
    else if write && e.hwArea off then some ⟨0x03, a⟩
    else none
  | none => if !x.sup && userBarred a then some ⟨0x03, a⟩ else none

/-- R70: is a user store to DRAM or scratch outside every valid output range of the cluster? -/
def storeRangeBad (e : Env) (x : Core) (a n : Nat) : Bool :=
  match e.cl with
  | none => false
  | some cl =>
    let chk := fget (e.chip.readReg (R.AGU_CTRL cl)) F.AGU_CTRL_STORE_CHK == 1
    if x.sup || !chk then false else
      match locate (a / 8 * 8) with
      | .dram _ _ | .scratch _ _ =>
        !((List.range 32).any fun i =>
          let lo := e.chip.reg (R.AGU_RNG_LO cl i)
          let hi := e.chip.reg (R.AGU_RNG_HI cl i)
          fget lo F.AGU_RNG_LO_VALID == 1 && fget lo F.AGU_RNG_LO_OUT == 1
            && decide (fget lo F.AGU_RNG_LO_BASE * 64 ≤ a)
            && decide (a + n ≤ fget hi F.AGU_RNG_HI_LAST * 64 + 64))
      | _ => false

/-- The halves of an access of `n` bytes at `a` (R241): one, or two split at the 8-byte boundary. -/
def halves (a n : Nat) : List (Nat × Nat) :=
  let first := 8 - a % 8
  if n ≤ first then [(a, n)] else [(a, first), (a + first, n - first)]

/-- The privilege exception of an access: that of its first refused half. -/
def privExc (e : Env) (x : Core) (a n : Nat) (write : Bool) : Option Exc :=
  (halves a n).findSome? fun h => accessExc e x h.1 write

/-- The exceptions of an access before it is issued, in the order of Table 10.1: privilege, split regions, store range
(R287: a refusal of either half). -/
def preExc (e : Env) (x : Core) (a n : Nat) (write : Bool) : Option Exc :=
  let hs := halves a n
  let split := match hs with
    | [(a0, _), (a1, _)] => e.region a0 != e.region a1
    | _ => false
  match privExc e x a n write with
  | some ex => some ex
  | none =>
    if split then some ⟨0x06, a⟩
    else if write then
      hs.findSome? fun h => if storeRangeBad e x h.1 h.2 then some ⟨0x07, h.1⟩ else none
    else none

/-! ## Loads -/

/-- How a load ends: the value with the cache as it then is, an exception, or a wait for a buffered store (R243). -/
inductive LoadRes where
  | value (v : Nat) (cache : List (Nat × List Byte)) (effs : List Eff)
  | trap (ex : Exc) (effs : List Eff)
  | wait
  deriving DecidableEq, Repr

/-- The newest buffered store that shares a byte with the access, and whether it covers it all (R243). -/
def forward (x : Core) (a n : Nat) : Option (BufStore × Bool) :=
  (x.pendingStores.find? fun t => decide (t.addr < a + n) && decide (a < t.addr + t.size)).map fun t =>
    (t, decide (t.addr ≤ a) && decide (a + n ≤ t.addr + t.size))

/-- One word of the core's own Den (R242, R274). -/
def denWord (e : Env) (m : Memory) (off : Nat) : WordRead :=
  readStored e.chip m (denBase e.key + off) (off / 8) (.den e.key off)

/-- Is an effect an access request alone? -/
def Eff.isRequest : Eff → Bool
  | .request _ => true
  | _ => false

/-- The access request of an effect. -/
def Eff.request? : Eff → Option Request
  | .request q => some q
  | _ => none

/-- Is an effect the read of a core's own Den, which no other member makes? -/
def Eff.ofOwnDen : Eff → Bool
  | .checked h _ _ _ => (match h.loc with | .den _ _ => true | _ => false)
  | _ => false

/-- What a checked read leaves for the module: nothing when the word was clean and no bypass window covers it (R346). -/
def Env.found (e : Env) (sup : Bool) (hit : Option Hit) : List Eff :=
  match hit with
  | some h => if h.out = .clean ∧ e.chip.bypass h.loc = none then [] else [.checked h e.job (e.who sup).port !e.fox]
  | none => []

/-- One aligned word as a load reads it: status, word, effects. -/
def loadWord (e : Env) (x : Core) (m : Memory) (a n : Nat) : Resp × Nat × List Eff :=
  match e.denOff a with
  | some off =>
    let r := denWord e m (off / 8 * 8)
    (r.resp, r.data, e.found x.sup r.hit)
  | none =>
    match e.chip.route (e.who x.sup) a false with
    | .deflt die => (.default, 0, [.defErr die (e.who x.sup) false a])
    | .abort => (.abort, 0, [.aborted e.job])
    | .register r =>
      if n = 8 ∧ a % 8 = 0 then (.okay, (e.chip.readReg r).toNat, [])
      else (.default, 0, [.defErr (e.who x.sup).die (e.who x.sup) false a])
    | .word key fold loc =>
      let r := readStored e.chip m key fold loc
      (r.resp, r.data, e.found x.sup r.hit)

/-- The eight words of the 64-byte line of `a`, read as one piece (R155, R196: the response covers all of them): status, words,
effects. An answer DEFAULT or ABORT is the whole line's, and so is UCE of any of its words (DEDUCED, log 67). -/
def loadLine (e : Env) (x : Core) (m : Memory) (a : Nat) : Resp × List Nat × List Eff :=
  let r := loadWord e x m (a / 8 * 8) 8
  if r.1 = .default ∨ r.1 = .abort then (r.1, [], r.2.2)
  else
    let ws := (List.range 8).map fun i => loadWord e x m (a / 64 * 64 + 8 * i) 8
    (if ws.all fun w => w.1 == .okay then .okay else .uce, ws.map fun w => w.2.1, (ws.map fun w => w.2.2).flatten)

/-- Is the place held by the data cache (R243: DRAM domains and scratch)? -/
def cacheable (a : Nat) : Bool :=
  match locate (a / 8 * 8) with
  | .dram _ _ | .scratch _ _ => true
  | _ => false

/-- The data cache with the line of `a` added; the manual states no replacement rule, so which line gives way, and whether one
does, is open. -/
def fillLine (e : Env) (x : Core) (a : Nat) (ws : List Nat) : List (Nat × List Byte) :=
  let line := a / 64 * 64
  let room := if e.fox then 512 else 256
  let full := decide (room ≤ x.dcache.length)
  let old := if full || Config.freeBool (e.chip.freeCtr + line)
    then x.dcache.eraseIdx (Config.freeNat (e.chip.freeCtr + line) % (x.dcache.length + 1) % max 1 x.dcache.length)
    else x.dcache
  mset old line ((ws.map (bytesLE 8)).flatten)

/-- Bytes `off..off+n` of a word. -/
def wordBytes (w off n : Nat) : Nat := w / 2 ^ (8 * off) % 2 ^ (8 * n)

/-- One half of a load through the cache: status, value, cache, effects. A load that misses the cache reads the whole line and
keeps it; what its checks find in any of the line's words is the load's. -/
def loadHalf (e : Env) (x : Core) (m : Memory) (a n : Nat) (cached : Bool) :
    Resp × Nat × List (Nat × List Byte) × List Eff :=
  if (e.denOff a).isSome then
    let r := loadWord e x m (a / 8 * 8) n
    (r.1, wordBytes r.2.1 (a % 8) n, x.dcache, r.2.2)
  else if cached && cacheable a then
    match mget? x.dcache (a / 64 * 64) with
    | some line => (.okay, natLE ((line.drop (a % 64)).take n), x.dcache, [])
    | none =>
      let r := loadLine e x m a
      (r.1, wordBytes (r.2.1.getD (a / 8 % 8) 0) (a % 8) n, if r.1 = .okay then fillLine e x a r.2.1 else x.dcache,
        .request ⟨a, n, false, 0⟩ :: r.2.2)
  else
    let r := loadWord e x m (a / 8 * 8) (if a % 8 = 0 then n else 0)
    (r.1, wordBytes r.2.1 (a % 8) n, x.dcache, .request ⟨a, n, false, 0⟩ :: r.2.2)

/-- The exception of an error response to a load (Table 10.1, Table 12.4). -/
def respExc (r : Resp) (a : Nat) : Exc := ⟨if r = .uce then 0x09 else 0x08, a⟩

/-- A load of `n` bytes at the 48-bit address `a` (R241, R243, R287, R288). -/
def loadBytes (e : Env) (x : Core) (m : Memory) (a n : Nat) (cached : Bool) : LoadRes :=
  match preExc e x a n false with
  | some ex => .trap ex []
  | none =>
    match (if (e.denOff a).isSome then none else forward x a n) with
    | some (t, true) => .value (wordBytes t.data (a - t.addr) n) x.dcache []
    | some (_, false) => .wait
    | none =>
      match halves a n with
      | [(a0, n0), (a1, n1)] =>
        let r0 := loadHalf e x m a0 n0 cached
        if r0.1 ≠ .okay then .trap (respExc r0.1 a0) r0.2.2.2
        else
          let r1 := loadHalf e { x with dcache := r0.2.2.1 } m a1 n1 cached
          if r1.1 ≠ .okay then .trap (respExc r1.1 a1) (r0.2.2.2 ++ r1.2.2.2)
          else .value (r0.2.1 + r1.2.1 * 2 ^ (8 * n0)) r1.2.2.1 (r0.2.2.2 ++ r1.2.2.2)
      | _ =>
        let r := loadHalf e x m a n cached
        if r.1 ≠ .okay then .trap (respExc r.1 a) r.2.2.2 else .value r.2.1 r.2.2.1 r.2.2.2

/-! ## Stores -/

/-- How a store ends at the core: buffered or done in the Den, an exception, or a wait for room (R297). -/
inductive StoreRes where
  | done (x : Core) (m : Memory)
  | trap (ex : Exc)
  | wait
  deriving DecidableEq, Repr

/-- The bit number of an access size in a store record. -/
def log2Size (n : Nat) : Nat := if n = 1 then 0 else if n = 2 then 1 else if n = 4 then 2 else 3

/-- Record of a store (Table 11.2), counted in the window (R257). -/
def Core.noteStore (x : Core) (a n data : Nat) : Core :=
  let y := x.note (0x02 * 2 ^ 56 + log2Size n * 2 ^ 48 + a) data
  { y with win := { y.win with stores := y.win.stores + 1 } }

/-- Write part of a word of the core's own Den at once (R242); an uncorrectable merge leaves the word (R333). -/
def denStoreHalf (e : Env) (m : Memory) (off n data : Nat) : Memory :=
  let w := off / 8 * 8
  let mask := (2 ^ n - 1) * 2 ^ (off % 8)
  (writeWord e.chip m (denBase e.key + w) (w / 8) (.den e.key w) (data * 2 ^ (8 * (off % 8)) % 2 ^ 64) mask).1

/-- What the merges of a store to the core's own Den have read: the words that the store covers in part (R217). -/
def denMerges (e : Env) (m : Memory) (a n : Nat) : List Hit :=
  match e.denOff a with
  | none => []
  | some off => (halves off n).filterMap fun h => if h.2 = 8 then none else (denWord e m (h.1 / 8 * 8)).hit

/-- R333, Table 12.4: a store to the own Den whose merge is uncorrectable is not performed and receives UCE: a pending cause 0x0A. -/
def Core.denAnswer (x : Core) (a : Nat) (l : List Hit) : Core :=
  { x with irq := x.irq ++ (l.filter fun h => h.out == .bad).map fun _ => (0x0A, wNat a) }

/-- Write the low `n` bytes to the core's own Den: to its own copy, and to the odd core's copy while a resync
copies the Den from this core (R300 step 2). -/
def denStore (e : Env) (m : Memory) (off n data : Nat) : Memory :=
  let one (e : Env) (m : Memory) : Memory :=
    match halves off n with
    | [(o0, n0), (o1, n1)] => denStoreHalf e (denStoreHalf e m o0 n0 (data % 2 ^ (8 * n0))) o1 n1 (data / 2 ^ (8 * n0))
    | _ => denStoreHalf e m off n data
  let m1 := one e m
  match e.cl with
  | some cl =>
    match (e.chip.clu cl).resync with
    | some r => if 3 * cl + r.donor = e.key then one { e with key := 3 * cl + r.odd } m1 else m1
    | none => m1
  | none => m1

/-- The window must close before a word whose stores would take its store count above 32 (R296). -/
def Core.roomFor (x : Core) (k : Nat) : Option Core :=
  if x.win.stores + k ≤ 32 then some x
  else if x.closed.isSome then none
  else some (x.closeWin x.pc true)

/-- A store of `n` bytes at the 48-bit address `a` after the window has room (R242, R271, R297). -/
def storeBytes (e : Env) (x : Core) (m : Memory) (a n data : Nat) : StoreRes :=
  match preExc e x a n true with
  | some ex => .trap ex
  | none =>
    match e.denOff a with
    | some off => .done (x.noteStore a n data) (denStore e m off n data)
    | none =>
      if 64 ≤ x.buffered then .wait
      else
        let y := x.noteStore a n data
        .done { y with win := { y.win with buf := y.win.buf ++ [⟨a, n, data, x.sup, e.job⟩] } } m

end Sys2Proof.Machine
end

