-- ==== Sys2Proof/Machine/JobOps.lean ====
section
/-! DEFINITION. Machine/JobOps.lean: parameter blocks (R51, Table 3.1), how a job ends on its clusters (R362, R81, R152) and
the dependent discards of R363. -/

namespace Sys2Proof.Machine

/-- A word as master `w` reads it: response, data and what the checker found. -/
def masterRead (c : Chip) (m : Memory) (w : Who) (a : Nat) : WordRead :=
  match c.route w a false with
  | .word key fold loc => readStored c m key fold loc
  | .register r => ⟨.okay, (c.readReg r).toNat, none⟩
  | .deflt _ => ⟨.default, 0, none⟩
  | .abort => ⟨.abort, 0, none⟩

/-! ## Parameter blocks -/

/-- Two ranges share a byte. -/
def Range.overlaps (a b : Range) : Bool := decide (a.base < b.base + b.len) && decide (b.base < a.base + a.len)

/-- The fields of a parameter block header (Table 3.1, offset 0). -/
structure BlockHead where
  nin : Nat
  nout : Nat
  clusters : Nat
  pwords : Nat
  ok : Bool
  deriving DecidableEq, Repr

/-- The header word. -/
def blockHead (w : Nat) : BlockHead :=
  let nin := bits w 39 32
  let nout := bits w 31 24
  let cl := bits w 23 16
  { nin := nin, nout := nout, clusters := cl, pwords := bits w 15 0,
    ok := bits w 63 48 == 0x4A42 && bits w 47 40 == 1 && decide (nin ≤ 16) && decide (1 ≤ nout) && decide (nout ≤ 15)
      && decide (cl ≤ 48) }

/-- What the executive's read of a parameter block gives: header and ranges, a header or range that breaks Table 3.1, or
the first response other than OKAY with what was found. -/
inductive BlockRead where
  | good (h : BlockHead) (l : List Range)
  | broken
  | answered (r : Resp) (hit : Option Hit)
  deriving DecidableEq, Repr

/-- Read the range list from entry `i` on. -/
def readRanges (c : Chip) (m : Memory) (w : Who) (pb nin : Nat) : Nat → Nat → List Range → BlockRead
  | 0, _, acc => .good ⟨0, 0, 0, 0, true⟩ acc
  | k + 1, i, acc =>
    let b := masterRead c m w (pb + 8 + 16 * i)
    let l := masterRead c m w (pb + 16 + 16 * i)
    if b.resp ≠ .okay then .answered b.resp b.hit
    else if l.resp ≠ .okay then .answered l.resp l.hit
    else if b.data % 64 ≠ 0 ∨ l.data % 64 ≠ 0 ∨ l.data = 0 then .broken
    else readRanges c m w pb nin k (i + 1) (acc ++ [⟨decide (nin ≤ i), b.data, l.data⟩])

/-- R51: the executive of a partition reads a parameter block. -/
def readBlock (c : Chip) (m : Memory) (w : Who) (pb : Nat) : BlockRead :=
  let h := masterRead c m w pb
  if h.resp ≠ .okay then .answered h.resp h.hit
  else
    let bh := blockHead h.data
    if !bh.ok then .broken
    else match readRanges c m w pb bh.nin (bh.nin + bh.nout) 0 [] with
      | .good _ l => .good bh l
      | r => r

/-- The executive of a partition as a master: supervisor mode on its lowest cluster. -/
def Chip.execWho (c : Chip) (p : Nat) : Who := foxWho c (12 * (c.diesOf p).headD 0) true

/-- The declared ranges of a job: those recorded at its start, or those its block holds now. -/
def Chip.declared (c : Chip) (m : Memory) (j : Job) : List Range :=
  if j.started then j.ranges
  else match readBlock c m (c.execWho j.part) j.pblock with
    | .good _ l => l
    | _ => []

/-! ## Ending a job -/

/-- The job with a handle. -/
def Chip.job (c : Chip) (h : Nat) : Option Job := c.mgmt.jobs.find? fun j => j.handle == h

/-- Jobs that have not ended. -/
def Chip.openJobs (c : Chip) : List Job := c.mgmt.jobs.filter fun j => j.ended.isNone

/-- Replace the job with a handle. -/
def Chip.mapJob (c : Chip) (h : Nat) (f : Job → Job) : Chip :=
  { c with mgmt := { c.mgmt with jobs := c.mgmt.jobs.map fun j => if j.handle = h then f j else j } }

/-- The job that runs on a cluster, as a list. -/
def Chip.jobOn (c : Chip) (n : Nat) : List Nat := (c.clu n).job.toList

/-- R81: an issue slot whose stream is removed; its handle becomes stale. A slot whose stream has retired keeps its flags and its status
until it is reused (R143); a fault of a job that has ended is no longer one to be consumed. -/
def Slot.removed (x : Slot) : Slot :=
  if x.state == .retired then { x with consumed := true } else { used := x.used, gen := x.gen }

/-- R81, R152, R362: remove the streams, fences and pending traps of a cluster and drop its commit windows. -/
def Chip.clearIssue (c : Chip) (n : Nat) : Chip :=
  let cl := c.clu n
  let c1 := c.setClu n { cl with
    slots := cl.slots.map fun e => (e.1, e.2.removed), fences := [], traps := [] }
  (List.range 16).foldl (fun c t =>
    ((c.setTile (16 * n + t) { wins := [] }).setFld (R.TIL_TILE_STAT n t) F.TIL_TILE_STAT_ACTIVE 0).setFld
      (R.XBR_STAT (16 * n + t)) F.XBR_STAT_LOADED 0) c1

/-- Take a core back to its executive: its unreleased window is dropped and it goes on in supervisor mode at the
executive's entry. DESIGN CHOICE: the manual does not say where the executive goes on after it has ended a kernel. -/
def Core.toExec (x : Core) (entry : Nat) : Core :=
  if x.run = .executing ∨ x.run = .stalled then
    { x with win := {}, closed := none, run := .executing, pc := entry, sup := true, exc := false, cur := 0,
             erec := [], critEnd := none, stm := none, pendCur := none, due := [], issue := none, pwait := none }
  else x

/-- The executive entry address of a cluster (FOX_CTRL.ENTRY). -/
def Chip.entryOf (c : Chip) (n : Nat) : Nat := c.fld (R.FOX_CTRL n) F.FOX_CTRL_ENTRY * 4

/-- A cluster gives up its job. -/
def Chip.freeCluster (c : Chip) (n : Nat) : Chip :=
  let c1 := c.clearIssue n
  let c2 := (List.range 3).foldl (fun c k => c.setCore (3 * n + k) ((c.core (3 * n + k)).toExec (c.entryOf n))) c1
  c2.setClu n { c2.clu n with job := none, rank := 0, inBarrier := false, barrierOpen := false, returned := false }

/-- End a job on all its clusters with the status and words 1 and 2 of its completion (Table 15.7); a job that has
already ended keeps its end. -/
def Chip.endJob (c : Chip) (m : Memory) (h status : Nat) (w1 w2 : Word) : Chip :=
  match c.job h with
  | none => c
  | some j =>
    if j.ended.isSome then c
    else
      let rg := c.declared m j
      let c1 := c.mapJob h fun j => { j with ended := some ⟨status, w1, w2⟩, ranges := rg }
      j.clusters.foldl Chip.freeCluster c1

/-- R363: the handles that a discard of `root` takes with it, `root` first, in order of acceptance. -/
def Chip.dependants (c : Chip) (m : Memory) (root : Job) : List Nat :=
  let later := (c.mgmt.jobs.dropWhile fun j => j.handle != root.handle).drop 1
  let step := fun (acc : List (Nat × List Range)) (j : Job) =>
    if j.part = root.part ∧ j.started = false ∧ j.ended = none then
      let rg := c.declared m j
      let hit := acc.any fun d => d.2.any fun o => o.out && rg.any fun i => !i.out && i.overlaps o
      if hit then acc ++ [(j.handle, rg)] else acc
    else acc
  (later.foldl step [(root.handle, c.declared m root)]).map Prod.fst

/-- The handles that the discard of the listed jobs ends, dependants included, each once. -/
def Chip.discardSet (c : Chip) (m : Memory) (hs : List Nat) : List Nat :=
  (hs.map fun h =>
    match c.job h with
    | some j => if j.ended.isNone then c.dependants m j else []
    | none => []).flatten.eraseDups

/-- R362-R364: discard a job with its dependants. The job itself completes with `status` and SOURCE and LOC in word 1; a
dependant with ST_DISCARDED, the same word, and the handle of the first job in word 2. -/
def Chip.discardJob (c : Chip) (m : Memory) (h status src loc : Nat) : Chip :=
  match c.job h with
  | none => c
  | some j =>
    if j.ended.isSome then c
    else
      let w1 := wNat (src * 2 ^ 32 + loc)
      (c.dependants m j).foldl (fun c k =>
        if k = h then c.endJob m k status (if status = St.discarded then w1 else 0#64) 0#64
        else c.endJob m k St.discarded w1 (wNat h)) c

/-- Discard every listed job. -/
def Chip.discardJobs (c : Chip) (m : Memory) (hs : List Nat) (src loc : Nat) : Chip :=
  hs.foldl (fun c h => c.discardJob m h St.discarded src loc) c

end Sys2Proof.Machine
end

