-- ==== Sys2Proof/Machine/Faults.lean ====
section
/-! DEFINITION. Machine/Faults.lean: detection, record, fences, discards, quarantine and HALTED (chapter 13), with the
recoveries that detections start: resynchronisation (R300) and stop (R305). -/

namespace Sys2Proof.Machine

/-! ## Classes, reactions and recoveries (Table 13.7) -/

/-- Class of a detection before R367: 1 CE, 2 UCC, 3 FTL. -/
def detClass (d : Detection) : Nat :=
  match d.source with
  | 0x01 | 0x04 | 0x10 | 0x12 | 0x20 | 0x21 | 0x60 | 0x62 | 0x63 => 1
  | 0x27 | 0x32 | 0x40 | 0x42 | 0x49 | 0x51 | 0x61 | 0x64 | 0x70 | 0x71 | 0x72 => 3
  | 0x14 => if d.cls14 = 1 then 1 else 2
  | 0x03 => match bits d.detail 23 16 with
    | 1 | 2 | 4 => 2
    | _ => 3
  | _ => 2

/-- Does the source always halt the module (Table 13.7)? -/
def alwaysHalts (src : Nat) : Bool := [0x51, 0x61, 0x71, 0x72].contains src

/-- The compute die of the faulty part, by its location code (R6). -/
def locDie (loc : Nat) : Option Nat := if loc / 2 ^ 28 < 4 then some (loc / 2 ^ 28) else none

/-- R36, R358: the reaction of an FTL: HALT (6) in the module's or a SAFE partition's scope, FENCE_DIE (5) otherwise. -/
def Chip.ftlReaction (c : Chip) (d : Detection) : Nat :=
  if alwaysHalts d.source then 6
  else match locDie d.loc with
    | none => 6
    | some die => match c.partOf die with
      | none => 5
      | some p => if c.safePart p then 6 else 5

/-- Cores of a cluster that are not fenced. -/
def Chip.unfenced (c : Chip) (n : Nat) : List Nat := (List.range 3).filter fun k => !c.coreFenced n k

/-- R304: would a resync of core k that starts now be its third within 10^9 cycles? -/
def Chip.thirdResync (c : Chip) (n k : Nat) : Bool :=
  decide (2 ≤ recentCount (c.cluCycle n) (mget [] (c.clu n).resyncHist k))

/-- R304, R307: does a parity finding in TMR name a core whose third resync it would be? The core is fenced. -/
def Chip.thirdParity (c : Chip) (d : Detection) : Bool :=
  d.source == 0x23 && !d.inj && c.fld (R.OWL_STAT d.inst) F.OWL_STAT_CONFIG == 1 && c.thirdResync d.inst d.unit

/-- Reaction code of a detection (Tables 13.2 and 13.7). -/
def Chip.reaction (c : Chip) (d : Detection) : Nat :=
  if detClass d = 3 then c.ftlReaction d
  else match d.source with
    | 0x03 => match bits d.detail 23 16 with
      | 1 => 1
      | 2 => 3
      | _ => 4
    | 0x18 | 0x41 => 4
    | 0x21 => 2
    | 0x23 => if c.thirdParity d then 2 else 0
    | 0x24 => if ((c.unfenced d.inst).filter fun k => k != d.unit).length < 2 then 3 else 2
    | 0x25 | 0x28 | 0x39 | 0x48 => 3
    | 0x31 => 1
    | _ => 0

/-- Recovery code of a detection. -/
def Chip.recovery (c : Chip) (d : Detection) : Nat :=
  match d.source with
  | 0x01 => 1
  | 0x02 | 0x03 | 0x18 | 0x25 | 0x30 | 0x31 | 0x38 | 0x39 | 0x41 | 0x48 => 6
  | 0x04 => 2
  | 0x11 => if d.unit = 1 then 7 else 6
  | 0x12 | 0x14 => 3
  | 0x20 => 4
  | 0x22 | 0x24 | 0x26 | 0x50 => 5
  | 0x23 => if c.thirdParity d then 6 else if c.fld (R.OWL_STAT d.inst) F.OWL_STAT_CONFIG = 1 then 4 else 5
  | _ => 0

/-! ## Boundaries (R366, Table 13.10): fault status inst times 0x10000 plus the port or interface number -/

/-- A boundary by its inst and number. -/
def bnd (inst k : Nat) : Nat := inst * 0x10000 + k

/-- The matrix inst of a die (4 is H). -/
def matInst (d : Nat) : Nat := if d = 4 then 86 else 49 + 7 * d

/-- The link endpoint inst of a die (4 is H). -/
def linkInst (d : Nat) : Nat := if d = 4 then 86 else 50 + 7 * d

/-- Boundaries of a tile pair. -/
def pairBnds (n k : Nat) : List Nat :=
  [bnd (matInst (n / 12)) (8 * (n % 12) + k), bnd n (0x100 + k), bnd n (0x110 + k)]

/-- The Owl's inputs from a core. -/
def coreBnd (n k : Nat) : Nat := bnd n (0x200 + k)

/-- Boundaries of a stop and restart: the Fox port and the issue unit's interface to the cores. -/
def stopBnds (n : Nat) : List Nat := [bnd (matInst (n / 12)) (0x60 + n % 12), bnd n 0x210]

/-- Boundaries of a cluster: its tile-pair ports and its Fox port. -/
def cluBnds (n : Nat) : List Nat :=
  ((List.range 8).map fun k => bnd (matInst (n / 12)) (8 * (n % 12) + k)) ++ [bnd (matInst (n / 12)) (0x60 + n % 12)]

/-- Boundaries of a pseudo-channel: the residue unit's path to it and its controller's command queue. -/
def pchBnds (d n : Nat) : List Nat := [bnd (51 + 7 * d) n, bnd (53 + 7 * d) n]

/-- The far die and endpoint of link endpoint `i` of die `d` (R210 numbering, 4 is H). -/
def farEnd (d i : Nat) : Nat × Nat :=
  if d = 4 then (i, 2)
  else if i = 0 then ((d + 1) % 4, 1) else if i = 1 then ((d + 3) % 4, 0) else (4, d)

/-- Boundaries of a link: both endpoints. -/
def linkBnds (d i : Nat) : List Nat :=
  let f := farEnd d i
  [bnd (linkInst d) (0x300 + i), bnd (linkInst f.1) (0x300 + f.2)]

/-- Boundaries of a fenced partition: the ring endpoints of neighbouring dies outside it and the hub link endpoints on
H. -/
def dieBnds (dies : List Nat) : List Nat :=
  (dies.map fun d =>
    ([0, 1].filterMap fun i =>
      let f := farEnd d i
      if dies.contains f.1 then none else some (bnd (linkInst f.1) (0x300 + f.2)))
    ++ [bnd 86 (0x300 + d)]).flatten

/-- Boundaries of a Badger restart: the management bridge, the mailbox and event interfaces. -/
def badgerBnds : List Nat := [bnd 86 0x310, bnd 77 0, bnd 84 0]

/-- R366: start quarantine at boundaries; a boundary already in quarantine starts its count again. -/
def Chip.quarantine (c : Chip) (l : List Nat) : Chip :=
  { c with faults := { c.faults with quar := l.foldl (fun q b => mset q b (c.bndCycle b)) c.faults.quar } }

/-- The boundaries at which a detection of source 0x02, 0x03, 0x40 or 0x41 lies (Tables 13.4 and 13.10): a crossbar's partial-ring links and
issue-unit interface; the matrix port behind a cluster bridge; a matrix port, with the link endpoint behind an arriving link's
port; a link endpoint; the path to a pseudo-channel and its command queue behind a memory bridge; the interface of a hub bridge. -/
def detBnds (d : Detection) : List Nat :=
  let port := bits d.detail 15 8
  let hub := decide (d.inst = 86)
  let mat (m : Nat) : List Nat :=
    let arrive := if hub then (if 0x10 ≤ port ∧ port < 0x20 then [bnd 86 (0x300 + (port - 0x10) / 4)] else [])
      else if 0x70 ≤ port ∧ port < 0x7C then [bnd (m + 1) (0x300 + (port - 0x70) / 4)] else []
    bnd m port :: arrive
  match d.source with
  | 0x02 | 0x03 =>
    match bits d.detail 23 16 with
    | 1 => [bnd d.inst (0x100 + port % 8), bnd d.inst (0x110 + port % 8)]
    | 2 => [bnd (matInst (d.inst / 12)) port]
    | 3 => mat d.inst
    | 4 => [bnd d.inst (0x300 + d.unit / 3)]
    | 5 => [bnd (d.inst - 2) d.unit, bnd d.inst d.unit]
    | _ => if d.inst = 78 ∨ hub then [bnd 86 0x310] else [bnd d.inst 0]
  | 0x40 => mat d.inst
  | 0x41 => [bnd d.inst (0x300 + d.unit / 3)]
  | _ => []

/-- R367: does a detection lie at a quarantined boundary and have a source that quarantine demotes? -/
def Chip.consequential (c : Chip) (d : Detection) : Bool := (detBnds d).any c.quarantined

/-! ## The record (R353-R355) -/

/-- Count a detection of a class in FLT_COUNT (R354). -/
def Chip.count (c : Chip) (inst cls : Nat) : Chip :=
  match cls with
  | 1 => c.addFld (R.FLT_COUNT inst) F.FLT_COUNT_CE 1
  | 2 => c.addFld (R.FLT_COUNT inst) F.FLT_COUNT_UCC 1
  | 3 => c.addFld (R.FLT_COUNT inst) F.FLT_COUNT_FTL 1
  | _ => c.addFld (R.FLT_COUNT inst) F.FLT_COUNT_CONSEQ 1

/-- A detection as it is recorded: its location code at its level (R7). -/
def Detection.normal (d : Detection) : Detection := { d with loc := locAt d.level d.loc }

/-- FLT_STAT of a detection (Table 13.2), without OVF. -/
def Chip.statWord (c : Chip) (d : Detection) (cls react recov : Nat) : Word :=
  let part := (locDie d.loc).bind c.partOf
  wNat (fat F.FLT_STAT_VALID 1 + fat F.FLT_STAT_INJ (b2n d.inj) + fat F.FLT_STAT_INJ_COINCIDENT (b2n d.coinc)
    + fat F.FLT_STAT_CLASS cls + fat F.FLT_STAT_REACTION react + fat F.FLT_STAT_RECOVERY recov
    + fat F.FLT_STAT_LEVEL d.level + fat F.FLT_STAT_PART (part.getD 0) + fat F.FLT_STAT_PVALID (b2n part.isSome)
    + fat F.FLT_STAT_SOURCE d.source + fat F.FLT_STAT_LOC (locAt d.level d.loc))

/-- R354: latch the first detection since VALID was cleared; a later one sets OVF. `hs` are the jobs it discards. -/
def Chip.latch (c : Chip) (inst : Nat) (stat : Word) (detail : Nat) (hs : List Nat) : Chip :=
  if c.flag (R.FLT_STAT inst) F.FLT_STAT_VALID then c.setFld (R.FLT_STAT inst) F.FLT_STAT_OVF 1
  else
    let info := fat F.FLT_INFO_JOB (hs.headD 0) + fat F.FLT_INFO_JOBS (min hs.length 63) + fat F.FLT_INFO_DETAIL detail
    ((c.setReg (R.FLT_STAT inst) stat).setReg (R.FLT_INFO inst) (wNat info)).setReg (R.FLT_TIME inst)
      (wNat (c.instCycle inst))

/-! ## Transitions that a fault reaction abandons (R45) -/

/-- End a partition's transition: BUSY clears, the event is raised, the command is answered. -/
def Chip.endTransition (c : Chip) (p code status : Nat) : Chip :=
  match mget? c.mgmt.trans p with
  | none => c
  | some t =>
    let c1 := { c with mgmt := { c.mgmt with trans := mdel c.mgmt.trans p } }
    let c2 := (c1.setFld (R.PAR_STATUS p) F.PAR_STATUS_BUSY 0).raise (111 + p)
      (code * 2 ^ 8 + t.before * 2 ^ 4 + c.mode p)
    match t.cmd with
    | some cmd => c2.respond cmd status [wNat (c.mode p)]
    | none => c2

/-- R45: a fault reaction abandons the partition's transition, but for a fence during the entry self-test, which that
test's limit comparison counts. -/
def Chip.abandonTransition (c : Chip) (p : Nat) (fatal : Bool) : Chip :=
  match mget? c.mgmt.trans p with
  | none => c
  | some t => if !fatal && isSafe t.target && !t.tested then c else c.endTransition p 1 St.aborted

/-! ## Substitutions that a fence ends (R178) -/

/-- Abandon a copy-then-swap: the spare returns to SPARE, or to FAILED when it failed, and the source serves on. -/
def Chip.abandonSub (c : Chip) (d : Nat) (spareFailed : Bool) : Chip :=
  let x := c.dom d
  if !(c.flag (R.RES_SUB_STAT d) F.RES_SUB_STAT_BUSY && x.subCopy) then c
  else
    let sp := R.RES_PCH d x.subSpare
    let tg := R.RES_PCH d x.subTarget
    let c1 := c.setReg sp (wNat (fat F.RES_PCH_STATE (if spareFailed then 6 else 1) + fat F.RES_PCH_LOGICAL 0x3F))
    let c2 := if c1.fld tg F.RES_PCH_STATE = 3 then c1.setFld tg F.RES_PCH_STATE 0 else c1
    let c3 := (c2.setFld (R.RES_SUB_STAT d) F.RES_SUB_STAT_BUSY 0).setFld (R.RES_SUB_STAT d) F.RES_SUB_STAT_ABANDONED 1
    let c4 := c3.setDom d { x with subCmd := none }
    let c5 := c4.raise (139 + d) (x.subSpare * 2 ^ 8 + x.subTarget)
    match x.subCmd with
    | some cmd =>
      ({ c5 with mgmt := { c5.mgmt with long := dropFirst (fun l => l.cmd == cmd) c5.mgmt.long } : Chip }).respond cmd
        St.aborted [wNat x.subSpare, wNat (c.fld (R.RES_SUB_STAT d) F.RES_SUB_STAT_UCE_COUNT)]
    | none => c5

/-! ## Core configurations and recoveries (chapter 11) -/

/-- Set OWL_STAT.CONFIG and the roles of the cores of a cluster (Table 11.1) for an effective mode. -/
def Chip.configure (c : Chip) (n mode : Nat) : Chip :=
  let up := c.unfenced n
  let tmr := mode = 1
  let cfg := if c.cluFenced n then 5 else if up.length < 2 then 5
    else if tmr then (if up.length = 3 then 1 else 3) else 2
  let role := fun k =>
    if cfg = 5 ∨ !up.contains k then 3
    else if tmr then 0
    else if up.idxOf k = 0 then 1 else if up.idxOf k = 1 then 2 else 3
  (List.range 3).foldl (fun c k => c.setFld (R.OWL_CORE n k) F.OWL_CORE_ROLE (role k))
    (c.setFld (R.OWL_STAT n) F.OWL_STAT_CONFIG cfg)

/-- Abandon a running resynchronisation (R303); the Owl's event is raised. -/
def Chip.abandonResync (c : Chip) (n : Nat) : Chip :=
  match (c.clu n).resync with
  | none => c
  | some r =>
    ((c.setClu n { c.clu n with resync := none }).setFld (R.OWL_STAT n) F.OWL_STAT_RESYNC_BUSY 0).raise (191 + n)
      (2 + r.odd * 2 ^ 8 + (maskOf ((List.range 3).filter (c.coreFenced n))) * 2 ^ 12)

/-- The last two entries of a history with one added. -/
def histAdd (l : List Nat) (t : Nat) : List Nat := lastN 2 (l ++ [t])

/-- A core held in reset: nothing of it is kept (Table 13.11) but the stores already released, which complete (R305). -/
def Core.heldReset (x : Core) : Core := { run := .held, released := x.released }

/-- R300 step 1: take the odd core out, hold it in reset, and let the other two run on as a compared pair. An
injection-only resync enters no history (R321). -/
def Chip.startResync (c : Chip) (n k : Nat) (inj : Bool) : Chip :=
  let donor := ((List.range 3).filter fun j => j != k).headD 0
  let now := c.cluCycle n
  let c1 := c.setCore (3 * n + k) {}
  let cl := c1.clu n
  let hist := if inj then cl.resyncHist else mset cl.resyncHist k (histAdd (mget [] cl.resyncHist k) now)
  let c2 := c1.setClu n { cl with resync := some ⟨k, donor, false, false⟩, resyncHist := hist }
  let a := R.OWL_CORE n k
  let w := fput (fput (c2.reg a) F.OWL_CORE_ROLE 3) F.OWL_CORE_LAST_RESYNC (now % 2 ^ 40)
  let c3 := (c2.setReg a w).addFld a F.OWL_CORE_RESYNC_TOTAL 1
  let s := R.OWL_STAT n
  let w := fput (fput (fput (c3.reg s) F.OWL_STAT_CONFIG 3) F.OWL_STAT_RESYNC_BUSY 1) F.OWL_STAT_RESYNC_CORE k
  (c3.setReg s w).quarantine [coreBnd n k]

/-- R307: the closed windows of a cluster's cores are not released. -/
def Chip.withhold (c : Chip) (n : Nat) : Chip :=
  (List.range 3).foldl (fun c k => c.setCore (3 * n + k) { c.core (3 * n + k) with closed := none }) c

/-- R305 steps 1 and 2: drop the unreleased windows, hold every core, which then has no role (Table 11.9), abandon a resync; the core
self-test follows. The released stores complete. -/
def Chip.stopCluster (c : Chip) (n : Nat) (counted : Bool) : Chip :=
  let c1 := c.abandonResync n
  let c2 := (List.range 3).foldl (fun c k =>
    let c := c.setFld (R.OWL_CORE n k) F.OWL_CORE_ROLE 3
    if c.coreFenced n k then c else c.setCore (3 * n + k) (c.core (3 * n + k)).heldReset) c1
  ((c2.setClu n { c2.clu n with stop := .selfTest, stopCounted := counted, stopAt := c.cluCycle n }).setFld (R.OWL_STAT n)
    F.OWL_STAT_CONFIG 4).quarantine (stopBnds n)

/-! ## Fences (Table 13.8) -/

/-- Set bits of FLT_FENCE.MAP. -/
def Chip.setFence (c : Chip) (inst mask : Nat) : Chip :=
  c.setReg (R.FLT_FENCE inst) (c.reg (R.FLT_FENCE inst) ||| wNat mask)

/-- R203: pieces outstanding on a fenced part are answered ABORT, whose read data are zeros (Table 7.3). -/
def Chip.abortPieces (c : Chip) (p : OutPiece → Bool) : Chip :=
  let one := fun (o : OutPiece) =>
    if o.answer.isNone && p o then { o with answer := some (3, if o.piece.write then [] else List.replicate o.piece.nwords 0#64) }
    else o
  { c with fabric := { c.fabric with out := c.fabric.out.map one } }

/-- Is a piece one of a cluster's own: of its tile-pair ports or its Fox port (Table 7.1)? -/
def ofCluster (n : Nat) (p : Piece) : Bool :=
  p.die == n / 12 && (p.port / 8 == n % 12 && decide (p.port < 0x60) || p.port == 0x60 + n % 12)

/-- FENCE_PAIR: both tiles leave the deal and drop their windows; the pieces of their port are answered ABORT. -/
def Chip.fencePair (c : Chip) (n k : Nat) : Chip :=
  let c1 := (c.setFence n (3 * 2 ^ (2 * k))).quarantine (pairBnds n k)
  ((c1.setTile (16 * n + 2 * k) { wins := [] }).setTile (16 * n + 2 * k + 1) { wins := [] }).abortPieces fun o =>
    o.piece.die == n / 12 && o.piece.port == 8 * (n % 12) + k

/-- FENCE_CLUSTER: the island is gated; cores, tiles and issue unit stop; a running resync is abandoned (R303); every piece of the cluster is
answered ABORT. -/
def Chip.fenceCluster (c : Chip) (n : Nat) : Chip :=
  if c.cluFenced n then c
  else
    let c1 := (((c.abandonResync n).setFence n (2 ^ 19)).rebase n).setFld (R.CLK_CLUSTER n) F.CLK_CLUSTER_GATED 1
    let c2 := (c1.clearIssue n).setFld (R.OWL_STAT n) F.OWL_STAT_CONFIG 5
    let c3 := (List.range 3).foldl (fun c k =>
      let x := c.core (3 * n + k)
      (c.setCore (3 * n + k) { x with run := .fenced, win := {}, closed := none, released := [] }).setFld
        (R.OWL_CORE n k) F.OWL_CORE_ROLE 3) c2
    ((c3.setClu n { c3.clu n with stop := .running }).quarantine (cluBnds n)).abortPieces fun o => ofCluster n o.piece

/-- FENCE_CORE: the core is held in reset until module reset. In SAFE-T the others run on as a compared pair (R304);
otherwise the configuration follows Table 11.1 (R308). With fewer than two cores left the cluster is fenced. -/
def Chip.fenceCore (c : Chip) (n k : Nat) (selfTest : Bool) : Chip :=
  let x := c.core (3 * n + k)
  let c1 := (c.setFence n (2 ^ (16 + k))).setCore (3 * n + k)
    { x with run := .fenced, win := {}, closed := none, released := [] }
  let a := R.OWL_CORE n k
  let w := fput (fput (c1.reg a) F.OWL_CORE_ROLE 3) F.OWL_CORE_FENCED 1
  let w := if selfTest then fput w F.OWL_CORE_SELFTEST_FAIL 1 else w
  let c2 := (c1.setReg a w).quarantine [coreBnd n k]
  if (c2.unfenced n).length < 2 then c2.fenceCluster n
  else if (c2.clu n).stop = .running ∧ c2.fld (R.OWL_STAT n) F.OWL_STAT_CONFIG ≠ 0
    then c2.configure n (c2.cluMode n) else c2

/-- FENCE_CHANNEL of a pseudo-channel: an active one becomes FENCED and keeps its logical channel; one that serves none
becomes FAILED; a RETIRED one stays; a COPYING spare fails and a SOURCE ends the copy (R178). -/
def Chip.fencePch (c : Chip) (d n : Nat) : Chip :=
  let a := R.RES_PCH d n
  let c1 := (c.setFence (53 + 7 * d) (2 ^ n)).quarantine (pchBnds d n)
  match c.fld a F.RES_PCH_STATE with
  | 0 => c1.setFld a F.RES_PCH_STATE 5
  | 3 => (c1.abandonSub d false).setFld a F.RES_PCH_STATE 5
  | 2 => c1.abandonSub d true
  | 1 => c1.setFld a F.RES_PCH_STATE 6
  | _ => c1

/-- A hop of an outstanding piece: link endpoint times 4 plus channel, with the die. -/
def hopKey (d i ch : Nat) : Nat := d * 256 + i * 4 + ch

/-- The two dies that a hop joins. -/
def hopDies (k : Nat) : List Nat := [k / 256, (farEnd (k / 256) (k % 256 / 4)).1]

/-- FENCE_CHANNEL of link channel 3i + j of die `d`: the bit is set at both endpoints. Answers whether the link is now
wholly fenced. -/
def Chip.fenceLink (c : Chip) (d ij : Nat) : Chip × Bool :=
  let i := ij / 3
  let f := farEnd d i
  let c1 := ((c.setFence (linkInst d) (2 ^ ij)).setFence (linkInst f.1) (2 ^ (3 * f.2 + ij % 3))).quarantine
    (linkBnds d i)
  let c2 := c1.abortPieces fun o => o.hops.contains (hopKey d i (ij % 3)) || o.hops.contains (hopKey f.1 f.2 (ij % 3))
  let all := bits (c2.reg (R.FLT_FENCE (linkInst d))).toNat (3 * i + 2) (3 * i) == 7
  if all then
    let off := fun (c : Chip) (d i : Nat) =>
      let a := R.FAB_LINK_STAT d i
      c.setReg a (fput (fput (c.reg a) F.FAB_LINK_STAT_FENCED 1) F.FAB_LINK_STAT_UP 0)
    (off (off c2 d i) f.1 f.2, true)
  else (c2, false)

/-- Pause a die's Hedgehog. -/
def Chip.pauseHog (c : Chip) (d : Nat) : Chip :=
  c.setReg (R.HOG_STAT d) (fput (fput (c.reg (R.HOG_STAT d)) F.HOG_STAT_ACTIVE 0) F.HOG_STAT_PAUSED 1)

/-- R337: Hedgehog runs while its die is assigned and not fenced, its stacks are out of self-refresh and no write-before-read
interval of R334 is open; it pauses otherwise. -/
def Chip.hogRest (c : Chip) (d : Nat) : Chip :=
  if !c.faults.halted && (c.partOf d).isSome && !c.dieFenced d && (c.dom d).written
      && [2 * d, 2 * d + 1].all fun s => c.fld (R.MEM_STAT s) F.MEM_STAT_PSTATE == 0
  then c.setReg (R.HOG_STAT d) (fput (fput (c.reg (R.HOG_STAT d)) F.HOG_STAT_ACTIVE 1) F.HOG_STAT_PAUSED 0)
  else c.pauseHog d

/-- Handles of a partition's jobs that have not ended. -/
def Chip.openHandles (c : Chip) (p : Nat) : List Nat := (c.openJobs.filter fun j => j.part == p).map Job.handle

/-- FENCE_DIE of a partition (R36, Table 13.8): its clusters are fenced, its Hedgehogs paused, FENCED is set, its jobs,
started or queued, are discarded, its transition and its substitutions are abandoned. -/
def Chip.fencePartition (c : Chip) (m : Memory) (p src loc : Nat) : Chip :=
  let dies := c.diesOf p
  let c1 := c.abandonTransition p true
  let c2 := c1.discardJobs m (c1.openHandles p) src loc
  let c3 := dies.foldl (fun c d =>
    (((clustersOfDie d).foldl Chip.fenceCluster (c.setFence (parInst d) 1)).pauseHog d).abandonSub d false) c2
  let c4 := (c3.setFld (R.PAR_STATUS p) F.PAR_STATUS_FENCED 1).quarantine (dieBnds dies)
  c4.abortPieces fun o => dies.contains o.piece.die || o.hops.any fun k => (hopDies k).any dies.contains

/-- Table 17.8: on entry to HALTED a session above DL1 is reduced to DL1. -/
def Chip.reduceSession (c : Chip) (p : Nat) : Chip :=
  let a := R.DBG_SESSION p
  if 2 ≤ c.fld a F.DBG_SESSION_LEVEL then (c.setFld a F.DBG_SESSION_REDUCED 1).setFld a F.DBG_SESSION_LEVEL 1 else c

/-- R472: HALTED stops a power transition; the present state stays. DEDUCED (log 53): its command is answered ST_ABORTED. -/
def Chip.stopPower (c : Chip) : Chip :=
  if !c.flag R.PWR_STAT F.PWR_STAT_BUSY then c
  else
    let st := c.fld R.PWR_STAT F.PWR_STAT_STATE
    let c1 := ((c.setFld R.PWR_STAT F.PWR_STAT_BUSY 0).setFld R.PWR_STAT F.PWR_STAT_TARGET st).raise 258 (st * 5)
    match c.mgmt.pwrCmd with
    | some cmd => ({ c1 with mgmt := { c1.mgmt with pwrCmd := none } } : Chip).respond cmd St.aborted []
    | none => c1

/-- R369 steps 1 to 4: enter HALTED for a request with SOURCE and LOC; a later request sets only OVF of inst 90. -/
def Chip.enterHalted (c : Chip) (m : Memory) (d : Detection) : Chip :=
  if c.faults.halted then c.setFld (R.FLT_STAT 90) F.FLT_STAT_OVF 1
  else
    let hs := (c.openJobs).map Job.handle
    let c := if d.inst = 90 ∨ c.flag (R.FLT_STAT 90) F.FLT_STAT_VALID then c
      else (c.latch 90 (c.statWord { d with inj := false, coinc := false } 3 6 0) 0 hs).raise 106
    let c := { c with faults := { c.faults with halted := true, haltCycle := c.hubCycle } }
    let c := (List.range 48).foldl (fun c n =>
      let c := ((c.abandonResync n).rebase n).setFld (R.CLK_CLUSTER n) F.CLK_CLUSTER_GATED 1
      let c := (List.range 3).foldl (fun c k =>
        let x := c.core (3 * n + k)
        c.setCore (3 * n + k) { x with win := {}, closed := none, released := [] }) (c.clearIssue n)
      (c.setFld (R.OWL_INJ n) F.OWL_INJ_ARMED 0).setFld (R.CLK_CLUSTER n) F.CLK_CLUSTER_PINNED 0) c
    let c := (List.range 4).foldl (fun c e =>
      ((c.abandonSub e false).pauseHog e).setFld (R.ECC_BP_CTRL e) F.ECC_BP_CTRL_EN 0) c
    let c := hs.foldl (fun c h => c.endJob m h St.discarded (wNat (d.source * 2 ^ 32 + d.loc)) 0#64) c
    let c := (List.range 4).foldl (fun c p => c.setFld (R.PAR_STATUS p) F.PAR_STATUS_MODE 7) c
    let c := (List.range 4).foldl (fun c p => c.abandonTransition p true) c
    let c := (List.range 4).foldl (fun c e =>
      c.setReg (R.FAB_CTRL e) (fput (fput (c.reg (R.FAB_CTRL e)) F.FAB_CTRL_FIXLAT 0) F.FAB_CTRL_KX880 0)) c
    let c := ((List.range 4).foldl Chip.reduceSession c).stopPower
    (c.abortPieces fun o => o.piece.die < 4 && decide (o.piece.port < 0x70)).sync.driveSafe

/-- R358: an FTL in the scope of a partition, of an unassigned die or of the module. -/
def Chip.fatal (c : Chip) (m : Memory) (d : Detection) : Chip :=
  if c.ftlReaction d = 6 then c.enterHalted m d
  else match locDie d.loc with
    | none => c
    | some die => match c.partOf die with
      | some p => if c.flag (R.PAR_STATUS p) F.PAR_STATUS_FENCED then c else c.fencePartition m p d.source d.loc
      | none => c.setFence (parInst die) 1

/-- R38, R39, R45: what every fence in a partition brings: the counts, the degraded condition and the limit check. -/
def Chip.afterFence (c : Chip) (m : Memory) (die : Nat) : Chip :=
  let c := c.sync
  match c.partOf die with
  | none => c
  | some p =>
    let c := c.abandonTransition p false
    if c.faults.halted || !c.safePart p then c
    else
      let c := c.degrade p
      let ctl := c.reg (R.PAR_CTRL p)
      if c.parClusters p < fget ctl F.PAR_CTRL_MIN_CLUSTERS ∨ c.parPairs p < fget ctl F.PAR_CTRL_MIN_PAIRS
        ∨ fget ctl F.PAR_CTRL_MAX_FENCED_PCH < c.parPch p then
        let e := (c.diesOf p).headD 0
        let d : Detection := ⟨0x70, parInst e, e * 2 ^ 28 + 0xF5FFFFF, 3, 0, [], 0, 0, false, false⟩
        let hs := (c.openJobs).map Job.handle
        ((((c.count (parInst e) 3).latch (parInst e) (c.statWord d 3 6 0) 0 hs).raise (16 + parInst e)).enterHalted m d).sync
      else c

/-! ## Detection (R352-R363) -/

/-- The cluster that a cluster fence or pair fence names: the inst of a cluster record. -/
def detCluster (d : Detection) : Option Nat := if d.inst < 48 then some d.inst else none

/-- Table 13.9: the handles that a detection discards before their dependants. -/
def Chip.discarded (c : Chip) (d : Detection) (react : Nat) : List Nat :=
  if react = 6 ∧ !d.inj then c.openJobs.map Job.handle
  else if react = 5 ∧ !d.inj then
    match (locDie d.loc).bind c.partOf with
    | some p => c.openHandles p
    | none => []
  else if detClass d = 1 ∨ [0x13, 0x14, 0x28, 0x50].contains d.source ∨ (d.source = 0x11 ∧ d.unit = 1) then []
  else
    let own := if [0x02, 0x03, 0x11, 0x41].contains d.source then d.jobs else []
    let clu := match detCluster d with
      | some n =>
        if [0x22, 0x23, 0x24, 0x25, 0x26, 0x30, 0x31, 0x38, 0x39, 0x48].contains d.source ∨ react = 1 ∨ react = 3
          ∨ (d.inj ∧ (d.source = 0x27 ∨ d.source = 0x32))
        then c.jobOn n else []
      | none => []
    let pch := if d.source = 0x18 ∧ react = 4 then
        let die := (d.inst - 53) / 7
        let st := c.fld (R.RES_PCH die d.unit) F.RES_PCH_STATE
        if st = 0 ∨ st = 3 then
          (c.openJobs.filter fun j => j.started && c.partOf die == some j.part
            && j.ranges.any fun r => decide (r.base < (die + 1) * 2 ^ 36) && decide (die * 2 ^ 36 < r.base + r.len)).map
              Job.handle
        else []
      else []
    (own ++ clu ++ pch).eraseDups

/-- R361: is the unit that a reaction fences fenced already? -/
def Chip.fencedAlready (c : Chip) (d : Detection) (react : Nat) : Bool :=
  let map := (c.reg (R.FLT_FENCE d.inst)).toNat
  match react with
  | 1 => bit map (2 * d.unit) && bit map (2 * d.unit + 1)
  | 2 => bit map (16 + d.unit)
  | 3 => bit map 19
  | 4 => bit map d.unit
  | _ => false

/-- Apply a fence reaction; a fence of a unit that is already fenced changes nothing (R361). -/
def Chip.applyFence (c : Chip) (m : Memory) (d : Detection) (react : Nat) : Chip :=
  if c.fencedAlready d react then c else
  match react with
  | 1 => (c.fencePair d.inst d.unit).afterFence m (d.inst / 12)
  | 2 => (c.fenceCore d.inst d.unit (d.source == 0x24)).afterFence m (d.inst / 12)
  | 3 =>
    let c := if d.source = 0x24 then c.fenceCore d.inst d.unit true else c
    (c.fenceCluster d.inst).afterFence m (d.inst / 12)
  | 4 =>
    if d.source = 0x18 then (c.fencePch ((d.inst - 53) / 7) d.unit).afterFence m ((d.inst - 53) / 7)
    else
      let die := if d.inst = 86 then 4 else (d.inst - 50) / 7
      let r := c.fenceLink die d.unit
      let c := { r.1 with faults := { r.1.faults with linkCause := (d.source, d.loc) } }
      let far := (farEnd die (d.unit / 3)).1
      let c := (c.afterFence m die).afterFence m far
      if r.2 then
        let owner := if die = 4 then far else die
        let e : Detection := ⟨0x42, d.inst, owner * 2 ^ 28 + 0xF1FFFFF, 3, bits d.detail 15 8 * 2 ^ 8, [], 0, 0, false,
          false⟩
        let rx := c.ftlReaction e
        let hs := c.discardSet m (c.discarded e rx)
        ((((c.count d.inst 3).latch d.inst (c.statWord e 3 rx 0) (bits d.detail 15 8 * 2 ^ 8) hs).raise
          (16 + d.inst)).fatal m e).sync
      else c
  | _ => c

/-- R329: a cache line with a parity error is a miss: it leaves the cache, and the next access refetches it. -/
def Chip.refetchLine (c : Chip) (k line : Nat) : Chip :=
  let x := c.core k
  let a := line / 2 * 64
  c.setCore k (if line % 2 = 1 then { x with icache := mdel x.icache a } else { x with dcache := mdel x.dcache a })

/-- Recoveries that the hardware starts: resync, stop and restart of a cluster or of the Badger pair. -/
def Chip.applyRecovery (c : Chip) (d : Detection) (recov : Nat) : Chip :=
  match d.source, recov with
  | 0x04, _ => c.refetchLine (if d.inst < 48 then 3 * d.inst + d.unit % 3 else 144 + d.unit % 2) d.cls14
  | 0x20, _ => c.startResync d.inst d.unit d.inj
  | 0x22, _ => c.stopCluster d.inst (!d.inj)
  | 0x23, 4 => (c.withhold d.inst).startResync d.inst d.unit d.inj
  | 0x23, 5 => c.stopCluster d.inst (!d.inj)
  | 0x23, _ => c.withhold d.inst
  | 0x26, _ => c.stopCluster d.inst false
  | 0x27, _ => if d.inj then c.stopCluster d.inst false else c
  | 0x50, _ =>
    let b := c.badger
    let now := c.hubEdges
    let c := { c with badger := { b with restarting := true, stopHist := if d.inj then b.stopHist else histAdd b.stopHist now } }
    let c := [144, 145].foldl (fun c k => c.setCore k (c.core k).heldReset) c
    (({ c with mbxA := { c.mbxA with accept := false } : Chip }.setMbx 1 { c.mbxB with accept := false })).quarantine
      badgerBnds
  | _, _ => c

/-- What a detection calls for, judged in the state that it meets: whether quarantine demotes it, its class, reaction and
recovery, the jobs that it discards, and those with their dependants. -/
structure Plan where
  csq : Bool
  cls : Nat
  react : Nat
  recov : Nat
  roots : List Nat
  hs : List Nat

/-- The plan of a detection (Tables 13.7 and 13.9, R363, R367). -/
def Chip.plan (c : Chip) (m : Memory) (d : Detection) : Plan :=
  let csq := c.consequential d
  let react := if csq then 0 else c.reaction d
  let roots := if csq then [] else c.discarded d react
  { csq := csq, cls := if csq then 4 else detClass d, react := react, recov := if csq then 0 else c.recovery d, roots := roots,
    hs := c.discardSet m roots }

/-- R354: a detection is counted, latched or noted as an overrun, and its event raised. -/
def Chip.record (c : Chip) (d : Detection) (p : Plan) : Chip :=
  ((c.count d.inst p.cls).latch d.inst (c.statWord d p.cls p.react p.recov) d.detail p.hs).raise (16 + d.inst)

/-- R367: the transfers of a consequential protocol or training error are answered ABORT: those of the port that the checker names, or those
on the channel that has lost training. (Those of a replay are answered by the hop.) -/
def Chip.abortAt (c : Chip) (d : Detection) : Chip :=
  let die := if d.inst = 86 then 4 else (d.inst - 49) / 7
  match d.source with
  | 0x40 => c.abortPieces fun o => o.piece.die == die && o.piece.port == bits d.detail 15 8
  | 0x41 =>
    let i := d.unit / 3
    let f := farEnd die i
    c.abortPieces fun o => o.hops.contains (hopKey die i (d.unit % 3)) || o.hops.contains (hopKey f.1 f.2 (d.unit % 3))
  | _ => c

/-- R361, R362: discard, recover and fence. An injection-only detection fences and halts nothing (R321, R347). In a cycle whose
first detection has halted the module, the recoveries of clusters do not start. -/
def Chip.react (c : Chip) (m : Memory) (d : Detection) (p : Plan) : Chip :=
  if p.csq then c.abortAt d
  else
    let c2 := if (p.react = 6 ∨ p.react = 5) ∧ !d.inj then c else c.discardJobs m p.roots d.source d.loc
    let c3 := if c2.faults.halted && d.source != 0x50 then c2 else c2.applyRecovery d p.recov
    if d.inj then c3
    else if detClass d = 3 then
      let c4 := if d.source = 0x03 then c3.discardJobs m d.jobs d.source d.loc else c3
      (c4.fatal m d).sync
    else c3.applyFence m d p.react

/-- R369: in HALTED a detection is counted and its event raised (R444), a further halt request sets OVF of the module inst, and a
Badger restart under R323 still runs. -/
def Chip.detectHalted (c : Chip) (d : Detection) : Chip :=
  let csq := c.consequential d
  let c0 := c.count d.inst (if csq then 4 else detClass d)
  let c1 := if !csq && c.reaction d == 6 && !d.inj then c0.setFld (R.FLT_STAT 90) F.FLT_STAT_OVF 1 else c0
  let c2 := c1.raise (16 + d.inst)
  if d.source = 0x50 then c2.applyRecovery d 5 else c2

/-- Table 13.7: source 0x38 less than 10^9 cycles after the previous one in the cluster is source 0x39. -/
def Chip.repeated (c : Chip) (d : Detection) : Detection :=
  if d.source = 0x38 ∧ d.inj = false then
    match (c.clu d.inst).last38 with
    | some t => if c.cluCycle d.inst < t + recentSpan then { d with source := 0x39 } else d
    | none => d
  else d

/-- Note a parity error of a cluster's issue unit, hazard table or chain table copy, from which the next one is judged. -/
def Chip.note38 (c : Chip) (d : Detection) : Chip :=
  if (d.source = 0x38 ∨ d.source = 0x39) ∧ d.inj = false then c.setClu d.inst { c.clu d.inst with last38 := some (c.cluCycle d.inst) }
  else c

/-- One detection: count, record, discard, recover, react. A source of 0 in inst 90 stands for a single disagreeing copy of the
module inst's registers, which is rewritten and counted (R368). -/
def Chip.detect (c : Chip) (m : Memory) (d : Detection) : Chip :=
  if d.source = 0 then c.count 90 1
  else if c.faults.halted then c.detectHalted d
  else
    let d := c.repeated d
    let p := c.plan m d
    ((c.record d p).note38 d).react m d p

/-- R355: order of detections of one cycle at one inst: highest class first (FTL, UCC, CE, CONSEQUENTIAL), then
lowest source. -/
def Chip.detRank (c : Chip) (d : Detection) : Nat :=
  (if c.consequential d then 3 else 3 - detClass d) * 256 + d.source

/-- Insert by rank. -/
def rankIns (c : Chip) (d : Detection) : List Detection → List Detection
  | [] => [d]
  | e :: r => if c.detRank d < c.detRank e then d :: e :: r else e :: rankIns c d r

/-- R354: record a detection of a cycle with its plan. -/
def Chip.recordOne (c : Chip) (e : Detection × Plan) : Chip :=
  if e.1.source = 0 then c.count 90 1 else c.record e.1 e.2

/-- R355, R361: the detections that fall in one cycle: their ranking decides which one a record latches; every one is recorded in
its own inst, and then all reactions apply. -/
def Chip.detectAll (c : Chip) (m : Memory) (ds : List Detection) : Chip :=
  let l := ds.foldr (rankIns c) []
  if c.faults.halted then l.foldl (fun c d => c.detect m d) c
  else
    let ps := l.map fun d => (c.repeated d, c.plan m (c.repeated d))
    ps.foldl (fun c e => if e.1.source = 0 then c else (c.note38 e.1).react m e.1 e.2) (ps.foldl Chip.recordOne c)

end Sys2Proof.Machine
end

