-- ==== Sys2Proof/Machine/Checked.lean ====
section
/-! DEFINITION. Machine/Checked.lean: what a checked read leaves in counters, records and the repeat-correct table
(R331-R333, R341-R344, R346, R347, R349, R491), the first default-target answer (R211), writes to registers by access
code (Table 0.2), and the effects of a core's accesses (Table 12.4). -/

namespace Sys2Proof.Machine

/-! ## Repeat-correct table (R341-R344) -/

/-- HOG_CTRL.THRESHOLD; values below 2 act as 2. -/
def Chip.threshold (c : Chip) (d : Nat) : Nat := max 2 (c.fld (R.HOG_CTRL d) F.HOG_CTRL_THRESHOLD)

/-- Slot of a word in the table, if it has one. -/
def Domain.rctSlot (x : Domain) (scr : Bool) (wa : Nat) : Option Nat :=
  (List.range 64).find? fun i =>
    let e := mget {} x.rct i
    e.state != 0 && e.scratch == scr && e.waddr == wa

/-- The slot a new word takes: the lowest free one, or, in a full table, the entry in state COUNTING with COUNT 1
that was incremented least recently. -/
def Domain.rctVictim (x : Domain) : Option Nat :=
  match (List.range 64).find? fun i => (mget {} x.rct i).state == 0 with
  | some i => some i
  | none =>
    let ones := (List.range 64).filter fun i =>
      let e := mget {} x.rct i
      e.state == 1 && e.count == 1
    ones.foldl (fun b i => match b with
      | none => some i
      | some j => if (mget {} x.rct i).stamp < (mget {} x.rct j).stamp then some i else some j) none

/-- R341, R342: enter a correction; an entry whose count reaches the threshold is due for Hedgehog's action. -/
def Chip.rctEnter (c : Chip) (d : Nat) (scr : Bool) (wa bitNo : Nat) : Chip :=
  let x := c.dom d
  let put := fun (i : Nat) (e : RctEntry) =>
    let due := if c.threshold d ≤ e.count ∧ ¬x.rctDue.contains i then x.rctDue ++ [i] else x.rctDue
    c.setDom d { x with rct := mset x.rct i e, rctStamp := x.rctStamp + 1, rctDue := due }
  match x.rctSlot scr wa with
  | some i =>
    let e := mget {} x.rct i
    if e.state = 2 then c
    else put i { e with count := e.count + 1, bitNo := bitNo, stamp := x.rctStamp, inLap := true }
  | none =>
    match x.rctVictim with
    | some i => put i { state := 1, scratch := scr, count := 1, bitNo := bitNo, waddr := wa, stamp := x.rctStamp,
                        inLap := true }
    | none => c.addFld (R.HOG_RCT_STAT d) F.HOG_RCT_STAT_DROPPED 1

/-! ## Checked reads -/

/-- Stack register index and entry of physical channel n of domain d. -/
def pchStat (d n : Nat) : Nat := R.MEM_PCH_STAT (2 * d + n / 32) (n % 32)

/-- Location code of a pseudo-channel at L3 (R7, R8): the fields that form its number, all ones below. -/
def pchLoc (d n : Nat) : Nat :=
  d * 2 ^ 28 + (if n < 32 then 0xC else 0xD) * 2 ^ 24 + n / 4 % 16 * 2 ^ 20 + (n % 4 * 1024 + 0x3FF) * 2 ^ 8 + 0xFF

/-- Source 0x18 of a pseudo-channel. -/
def pchDetection (d n : Nat) : Detection := ⟨0x18, 53 + 7 * d, pchLoc d n, 3, 0, [], n, 0, false, false⟩

/-- R491: an uncorrectable read counts once a lap by word; the sixteenth of a channel is source 0x18. -/
def Chip.uceLap (c : Chip) (m : Memory) (d n wa : Nat) : Chip :=
  let x := c.dom d
  let l := mget [] x.uceWords n
  if l.contains wa then c
  else
    let l1 := l ++ [wa]
    let c1 := (c.setDom d { x with uceWords := mset x.uceWords n l1 }).setFld (pchStat d n) F.MEM_PCH_STAT_UCE_LAP
      (min 16 l1.length)
    if l1.length = 16 then c1.detect m (pchDetection d n) else c1

/-- Physical address of a place. -/
def locAddr : Loc → Nat
  | .dram d off => d * 0x1000000000 + off
  | .scratch d off => 0x400000000000 + d * 0x10000000 + off
  | .hub off => 0x500000000000 + off
  | .den k off => denBase k + off
  | .reg a => a
  | .commit _ e => e
  | .nowhere => 0

/-- R346: a read inside an open bypass window loads ECC_BP_SYN. -/
def Chip.loadSyn (c : Chip) (h : Hit) : Chip :=
  match c.bypass h.loc, h.loc with
  | some _, .dram d _ | some _, .scratch d _ =>
    c.setReg (R.ECC_BP_SYN d)
      (wNat (fat F.ECC_BP_SYN_VALID 1 + fat F.ECC_BP_SYN_SYN h.syn + fat F.ECC_BP_SYN_ADDR (locAddr h.loc)))
  | _, _ => c

/-- Count a corrected read (R349, R491). -/
def Chip.countCe (c : Chip) (l : Loc) : Chip :=
  match l with
  | .dram d off =>
    (c.addFld (R.ECC_COUNT d) F.ECC_COUNT_CE_DRAM 1).addFld (pchStat d ((c.physOf d (chanOf off)).getD 0))
      F.MEM_PCH_STAT_CE 1
  | .scratch d _ => c.addFld (R.ECC_COUNT d) F.ECC_COUNT_CE_SCR 1
  | _ => c

/-- Count an uncorrectable read. -/
def Chip.countUce (c : Chip) (l : Loc) : Chip :=
  match l with
  | .dram d _ => c.addFld (R.ECC_COUNT d) F.ECC_COUNT_UCE_DRAM 1
  | .scratch d _ => c.addFld (R.ECC_COUNT d) F.ECC_COUNT_UCE_SCR 1
  | _ => c

/-- A checked read by a master, with source codes for a corrected and for an uncorrectable word: the syndrome register,
the counters, the repeat-correct table, the record (R331, R333, R341, R347). -/
def Chip.hit (c : Chip) (m : Memory) (h : Hit) (ceSrc uceSrc port : Nat) (jobs : List Nat) (dma : Bool) : Chip :=
  let c := c.loadSyn h
  let pat := c.bypass h.loc
  let inj := pat == some h.syn && h.syn != 0
  let coinc := pat.isSome && !inj
  let inst := if ceSrc = 0x12 then
      (match h.loc with | .dram d _ | .scratch d _ => 52 + 7 * d | _ => 52)
    else locInst h.loc
  match h.out with
  | .clean => c
  | .bad =>
    let c1 := (c.countUce h.loc).detect m
      ⟨uceSrc, inst, c.locCode h.loc 0xFF, 2, port * 2 ^ 8 + h.syn, jobs, b2n dma, 0, inj, coinc⟩
    match h.loc with
    | .dram d off =>
      if inj then c1 else c1.uceLap m d ((c.physOf d (chanOf off)).getD 0) (off / 8)
    | _ => c1
  | o =>
    let c1 := (c.countCe h.loc).detect m
      ⟨ceSrc, inst, c.locCode h.loc (corrBit o), 1, port * 2 ^ 8 + h.syn, [], 0, 0, inj, coinc⟩
    if inj then c1 else
      match h.loc with
      | .dram d off => c1.rctEnter d false (off / 8) (corrBit o)
      | .scratch d off => c1.rctEnter d true (off / 8) (corrBit o)
      | _ => c1

/-- A checked read that a matrix master made. -/
def Chip.masterHit (c : Chip) (m : Memory) (h : Option Hit) (port : Nat) (jobs : List Nat) (dma : Bool) : Chip :=
  match h with
  | some h => c.hit m h 0x10 0x11 port jobs dma
  | none => c

/-- R211, Table 7.7: the default target of a die answers a piece. -/
def Chip.deferr (c : Chip) (die : Nat) (w : Who) (write : Bool) (addr : Nat) : Chip :=
  let a := R.FAB_DEFERR die
  if c.flag a F.FAB_DEFERR_VALID then c.setFld a F.FAB_DEFERR_MORE 1
  else c.setReg a (wNat (fat F.FAB_DEFERR_VALID 1 + fat F.FAB_DEFERR_WRITE (b2n write)
    + fat F.FAB_DEFERR_PTAG (w.part.getD 0) + fat F.FAB_DEFERR_MASTER w.port + fat F.FAB_DEFERR_ADDR addr))

/-! ## Register writes -/

/-- Are the RWL fields of a register locked (R33, R209: outside BOOT and MAINTENANCE of its partition; those of FAB_CTRL on H
from HOST_READY on)? -/
def Chip.rwlLocked (c : Chip) (block die k : Nat) : Bool :=
  if block = 0x1D then !(c.mode k == 0 || c.mode k == 4)
  else if die = 0xE then c.flag R.HUB_BOOT_STAT F.HUB_BOOT_STAT_READY
  else !(c.dieMode die == 0 || c.dieMode die == 4)

/-- A write by access code (Table 0.2): RW fields take the value, W1C fields clear where 1 is written, W1S fields set
where 1 is written, RWL fields take the value while unlocked; every other field is unchanged. -/
def Chip.writeMasked (c : Chip) (a : Nat) (v : Word) : Chip :=
  match regDecode a with
  | none => c
  | some (d, die, _, k) =>
    let old := c.reg a
    let rw := wNat d.rw ||| (if c.rwlLocked d.block die k then 0#64 else wNat d.rwl)
    let w1c := wNat d.w1c
    let w1s := wNat d.w1s
    c.setReg a (((old &&& ~~~rw) ||| (v &&& rw)) &&& ~~~(v &&& w1c) ||| (v &&& w1s))

/-- R90, Table 3.11: clear AGU_SFLT and AGU_SFLT_ADDR. -/
def Chip.clearSflt (c : Chip) (n : Nat) : Chip := (c.setReg (R.AGU_SFLT n) 0#64).setReg (R.AGU_SFLT_ADDR n) 0#64

/-- A write to a register of a cluster's issue unit (R92): while OOP is 1, RNG_EN and STORE_CHK keep; VALID of
AGU_SFLT_ADDR clears both registers. -/
def Chip.writeAgu (c : Chip) (a : Nat) (v : Word) : Chip :=
  match regDecode a with
  | some (d, die, i, _) =>
    let n := 12 * die + i
    if d.off = 0x18 then
      if bit v.toNat 63 then c.clearSflt n else c
    else if d.off = 0 ∧ isSafe (c.dieMode die) then
      c.writeMasked a (fput (fput v F.AGU_CTRL_RNG_EN (c.fld a F.AGU_CTRL_RNG_EN)) F.AGU_CTRL_STORE_CHK
        (c.fld a F.AGU_CTRL_STORE_CHK))
    else c.writeMasked a v
  | none => c

/-- Registers that the Fox executive writes (Table 19.2): the chain table, the issue unit and FAB_DEFERR of its own
partition's dies. A store to any other register changes nothing: only the writers of Table 19.2 write it. -/
def Chip.foxRegWrite (c : Chip) (a : Nat) (v : Word) : Chip :=
  match regDecode a with
  | some (d, die, _, _) =>
    if d.block = 0x14 then c.writeAgu a v
    else if d.block = 0x12 ∧ d.off < 0x1A00 then c.writeMasked a v
    else if d.block = 0x17 ∧ d.off = 0x08 then
      if bit v.toNat 63 then c.setReg (R.FAB_DEFERR die) 0#64 else c
    else c
  | none => c

/-! ## Effects of a core's accesses -/

/-- A detection of the Badger pair's comparator (R323). -/
def badgerDetection (src : Nat) (inj : Bool) : Detection := ⟨src, 78, 0xE2FFFFFF, 4, 0, [], 0, 0, inj, false⟩

/-- R323: the Badger pair stops; a third stop within 10^9 cycles is source 0x51. -/
def Chip.badgerStop (c : Chip) (m : Memory) (recorded : Bool) : Chip :=
  if 2 ≤ recentCount c.hubEdges c.badger.stopHist then
    (c.applyRecovery (badgerDetection 0x50 false) 5).detect m (badgerDetection 0x51 false)
  else if recorded then c.detect m (badgerDetection 0x50 false)
  else c.applyRecovery (badgerDetection 0x50 false) 5

/-- Apply what a core's access left for the module. -/
def Chip.applyEff (c : Chip) (m : Memory) : Eff → Chip
  | .checked h job port badger =>
    let c1 := c.hit m h 0x10 0x11 port job.toList false
    if badger ∧ h.out = .bad then c1.badgerStop m false else c1
  | .defErr die w write a => c.deferr die w write a
  | .aborted job => c.discardJobs m job.toList c.faults.linkCause.1 c.faults.linkCause.2
  | .regStore w a v => if w.sup then c.foxRegWrite a v else c
  | .request _ => c
  | .uceJob job => c.discardJobs m job.toList 0x11 0

/-- Apply a list of effects in order. -/
def Chip.applyEffs (c : Chip) (m : Memory) (l : List Eff) : Chip := l.foldl (fun c e => c.applyEff m e) c

end Sys2Proof.Machine
end

