-- ==== Sys2Proof/Machine/Check.lean ====
section
/-! DEFINITION. Machine/Check.lean: the checks that Badger makes on every command (R47 steps 1 to 6, Table 2.5, R418), and
how a command row is served. -/

namespace Sys2Proof

/-- Parameter word k of a command. -/
def Cmd.p (c : Cmd) (k : Nat) : Nat := (c.params.getD k 0#64).toNat

end Sys2Proof

namespace Sys2Proof.Machine

/-- A row of Tables 2.5 and 15.5: scope (0 partition, 1 module, 2 either), whether the owner is checked, legality in BOOT,
SAFE, THROUGHPUT, MAINTENANCE, fenced and HALTED, whether P2 and P3 permit it, and the least and greatest LEN. -/
structure CmdSpec where
  scope : Nat
  owner : Bool
  legal : List Bool
  power : Bool
  lo : Nat
  hi : Nat
  deriving DecidableEq, Repr

/-- Legality in every state. -/
def allStates : List Bool := [true, true, true, true, true, true]

/-- The specification of an opcode; none for an unknown one. -/
def cmdSpec (op : Nat) : Option CmdSpec :=
  match op with
  | 0x01 => some ⟨1, false, allStates, true, 0, 0⟩
  | 0x02 => some ⟨2, false, allStates, true, 0, 1⟩
  | 0x03 => some ⟨1, false, allStates, true, 1, 1⟩
  | 0x04 => some ⟨0, true, [true, true, true, true, true, false], true, 2, 2⟩
  | 0x10 => some ⟨0, true, [true, false, false, true, false, false], false, 2, 2⟩
  | 0x11 => some ⟨0, true, [true, false, false, false, false, false], false, 1, 1⟩
  | 0x12 => some ⟨0, true, [false, true, true, true, false, false], false, 1, 1⟩
  | 0x13 => some ⟨0, false, [true, true, true, true, true, false], true, 0, 0⟩
  | 0x20 => some ⟨0, true, [false, true, true, false, false, false], false, 2, 2⟩
  | 0x21 => some ⟨0, true, [false, true, true, false, false, false], false, 1, 1⟩
  | 0x30 => some ⟨0, true, [true, true, true, true, false, false], false, 3, 2 ^ 32⟩
  | 0x31 => some ⟨0, true, [true, true, true, true, false, false], false, 2, 2⟩
  | 0x32 => some ⟨0, true, [true, false, false, true, false, false], false, 3, 3⟩
  | 0x33 => some ⟨0, true, [true, true, true, true, false, false], false, 1, 1⟩
  | 0x34 => some ⟨0, true, [true, true, true, true, false, false], false, 1, 1⟩
  | 0x35 => some ⟨1, false, allStates, false, 1, 1⟩
  | 0x40 => some ⟨0, true, [false, false, false, true, false, false], false, 1, 5⟩
  | 0x41 => some ⟨0, true, [false, false, false, true, false, false], false, 2, 2⟩
  | 0x42 => some ⟨0, true, [false, false, false, true, false, false], false, 2, 2⟩
  | 0x50 => some ⟨0, true, allStates, false, 1, 13⟩
  | 0x60 => some ⟨1, false, [true, true, true, true, true, false], true, 1, 1⟩
  | 0x7F => some ⟨1, false, allStates, true, 1, 1⟩
  | _ => none

/-- The bytes of the words of a command from word `k` on, the first byte lowest. -/
def cmd1Bytes (c : Cmd) (k : Nat) : List Byte := ((c.params.drop k).map fun w => bytesLE 8 w.toNat).flatten

/-- R457: a password is 8 to 32 bytes from 0x01 to 0x7F, padded with zero bytes. -/
def passwordOk (l : List Byte) : Bool :=
  let t := l.takeWhile fun b => b != 0#8
  decide (8 ≤ t.length) && (t.all fun b => decide (b.toNat < 0x80)) && (l.drop t.length).all fun b => b == 0#8

/-- The words that the format of an opcode asks for (Tables 15.5, 15.6 and 17.5). -/
def cmdLenOk (op : Nat) (c : Cmd) (s : CmdSpec) : Bool :=
  let n := c.params.length
  decide (s.lo ≤ n) && decide (n ≤ s.hi)
    && (if op = 0x30 then n == 2 + c.p 1 && decide (1 ≤ c.p 1)
        else if op = 0x40 then
          match c.p 0 % 256 with
          | 1 => n == 2
          | 2 => n == 4
          | 3 => n == 5
          | 4 => n == 3
          | _ => false
        else if op = 0x50 then
          let lvl := c.p 0 % 8
          c.p 0 / 1024 == 0 && bits (c.p 0) 7 3 == 0 && (match bits (c.p 0) 9 8 with
          | 0 => n == 1
          | 1 => n == 5 && lvl == 1 && passwordOk ((cmd1Bytes c 1).take 32)
          | 2 => n == 1 && decide (1 ≤ lvl) && decide (lvl ≤ 3)
          | _ => n == 13 && decide (1 ≤ lvl) && decide (lvl ≤ 3))
        else if op = 0x7F then c.p 0 == 0xA55A
        else true)

/-- Column of Table 2.5 for a partition (R49): an undefined partition is judged as BOOT. -/
def Chip.column (c : Chip) (p : Nat) : Nat :=
  if c.faults.halted then 5
  else if !c.parEn p then 0
  else if c.flag (R.PAR_STATUS p) F.PAR_STATUS_FENCED then 4
  else match c.mode p with
    | 0 => 0
    | 1 | 2 => 1
    | 3 => 2
    | _ => 3

/-- Power state P0 to P3. -/
def Chip.pState (c : Chip) : Nat := c.fld R.PWR_STAT F.PWR_STAT_STATE

/-- Is a debug session open on the partition? -/
def Chip.sessionOpen (c : Chip) (p : Nat) : Bool := c.flag (R.DBG_SESSION p) F.DBG_SESSION_OPEN

/-- The policy clock of a state (R473). -/
def policyMhz (st : Nat) : Nat := if st = 1 then 800 else 1600

/-- Legality of a power-state request in the present modes (R46, R469): P3 asks for every partition in BOOT or MAINTENANCE,
P2 for no job, a move between P0 and P1 for no FIXLAT partition in SAFE-T, SAFE-D or THROUGHPUT. DEDUCED (log 80): a move through P2 that would
change the policy clock of such a partition's islands is a move between P0 and P1. -/
def Chip.powerLegal (c : Chip) (target : Nat) : Bool :=
  let now := c.pState
  if target = now then true
  else if target = 3 then (List.range 4).all fun p => !c.parEn p || c.mode p == 0 || c.mode p == 4
  else if target = 2 then c.openJobs.isEmpty
  else (List.range 4).all fun p => !(c.parEn p && c.flag (R.PAR_CTRL p) F.PAR_CTRL_FIXLAT && decide (1 ≤ c.mode p)
      && decide (c.mode p ≤ 3) && (decide (now ≤ 1)
        || (List.range 48).any fun n => c.partOf (n / 12) == some p && c.fld (R.CLK_CLUSTER n) F.CLK_CLUSTER_POLICY_MHZ != policyMhz target))

/-- Legality of a command beyond the column (R41 and the footnotes of Table 2.5, Table 15.5, Table 17.8): the target of a
transition, the level of a debug open in HALTED, the remove form of CMD_RETIRE_PAGE, a power-state request. -/
def Chip.legalForm (c : Chip) (op : Nat) (cmd : Cmd) (col : Nat) : Bool :=
  let p := cmd.part % 4
  let t := cmd.p 0 % 8
  if op = 0x12 then
    (if col = 1 ∨ col = 2 then t == 4 else decide (1 ≤ t) && decide (t ≤ 3)) && !(isSafe t && c.sessionOpen p)
  else if op = 0x11 then !(isSafe t && c.sessionOpen p)
  else if op = 0x50 ∧ col = 5 then bits (cmd.p 0) 9 8 == 0 || decide (t ≤ 1)
  else if op = 0x33 then !bit (cmd.p 0) 63 || c.mode p == 4
  else if op = 0x60 then c.powerLegal (cmd.p 0 % 4)
  else true

/-- R47 steps 1 to 6: the status of the first check that fails, or none. -/
def Chip.check (c : Chip) (op : Nat) (cmd : Cmd) : Option Nat :=
  match cmdSpec op with
  | none => some St.opcode
  | some s =>
    let p := cmd.part % 4
    let modForm := cmd.mod
    if (s.scope = 0 ∧ modForm) ∨ (s.scope = 1 ∧ ¬modForm) ∨ cmdLenOk op cmd s = false then some St.param
    else if s.owner && !modForm && c.parEn p && c.owner p != cmd.chain then some St.notOwner
    else if !modForm && (mget? c.mgmt.trans p).isSome then some St.busy
    else
      let col := if modForm then (if c.faults.halted then 5 else 0) else c.column p
      if !(s.legal.getD col false) || !c.legalForm op cmd col then some St.illegalState
      else if !s.power && decide (2 ≤ c.pState) then some St.power
      else none

/-- R421, R220: a range of bytes lies wholly in the populated DRAM of one domain of the partition or in its scratch below
`top` (0x05E0_0000 for the kernel data area, 0x05F0_0000 with the executive area). -/
def Chip.memArea (c : Chip) (p lo n top : Nat) : Bool :=
  (c.diesOf p).any fun d =>
    (decide (d * 2 ^ 36 ≤ lo) && decide (lo + n ≤ d * 2 ^ 36 + 0xB70000000))
    || (decide (0x400000000000 + d * 0x10000000 ≤ lo) && decide (lo + n ≤ 0x400000000000 + d * 0x10000000 + top))

/-- R421: in a SAFE mode a write may not overlap a declared range of a started and uncompleted job. -/
def Chip.writeMeetsJob (c : Chip) (p lo n : Nat) : Bool :=
  c.safePart p && c.openJobs.any fun j =>
    j.part == p && j.started && j.ranges.any fun r => decide (r.base < lo + n) && decide (lo < r.base + r.len)

/-- Step 7 of R47 for CMD_MEM_WRITE. -/
def Chip.memWriteCheck (c : Chip) (cmd : Cmd) : Option Nat :=
  let p := cmd.part % 4
  if cmd.p 0 % 8 ≠ 0 ∨ c.memArea p (cmd.p 0) (8 * cmd.p 1) 0x05E00000 = false then some St.param
  else if c.writeMeetsJob p (cmd.p 0) (8 * cmd.p 1) then some St.busy
  else none

/-- Step 7 of R47 for CMD_MEM_READ. DEDUCED: an address that is no multiple of 8 is ST_PARAM, as for a write. -/
def Chip.memReadBad (c : Chip) (cmd : Cmd) : Bool :=
  let n := cmd.p 1
  cmd.p 0 % 8 != 0 || n == 0 || decide (2 ^ 32 - 2 < n) || !c.memArea (cmd.part % 4) (cmd.p 0) (8 * n) 0x05F00000

/-- R421: the lowest-numbered free channel of a chain. -/
def Chip.freeChannel (c : Chip) (chain : Nat) : Option Nat :=
  ([0, 1, 2].map (3 * chain + ·)).find? fun ch =>
    !c.flag (R.DMA_STAT ch) F.DMA_STAT_BUSY && !c.flag (R.DMA_STAT ch) F.DMA_STAT_HALTED

/-- R413: does a range overlap a running fill of the partition? -/
def Chip.meetsFill (c : Chip) (p lo n : Nat) : Bool :=
  c.mgmt.long.any fun l => l.cmd.op == 0x32 && l.cmd.part % 4 == p && decide (l.lo < lo + n) && decide (lo < l.hi)

/-- Does a transfer wait: no channel free, or its range overlaps a running fill? -/
def Chip.transferWaits (c : Chip) (cmd : Cmd) (n : Nat) : Bool :=
  (c.freeChannel cmd.chain).isNone || c.meetsFill (cmd.part % 4) (cmd.p 0) (8 * n)

/-! ## Queues (R408, R412, R37) -/

/-- The queue of a command: its partition's, or the module's. -/
def queueOf (cmd : Cmd) : Nat := if cmd.mod then 4 else cmd.part % 4

/-- Does a waiting command come after one of a chain that arrives in a cycle? Within one hub-island cycle chain A comes first. -/
def Queued.after (e : Queued) (cycle chain : Nat) : Bool :=
  decide (cycle < e.cycle) || (decide (cycle = e.cycle) && decide (chain < e.cmd.chain))

/-- R412: a command joins its queue in the order in which the last checked words arrived. -/
def Chip.enqueue (c : Chip) (cmd : Cmd) (ready passed : Bool) : Chip :=
  let now := c.hubEdges
  let l := c.queues.waiting
  let later := fun (e : Queued) => e.after now cmd.chain
  { c with queues := { c.queues with
      waiting := l.takeWhile (fun e => !later e) ++ [⟨cmd, now, ready, passed⟩] ++ l.dropWhile (fun e => !later e) } }

/-- Does a command wait already, or is it being received? -/
def Chip.waits (c : Chip) (cmd : Cmd) : Bool :=
  c.queues.waiting.any fun e => e.cmd == cmd || (!e.ready && e.cmd.chain == cmd.chain && e.cmd.cseq == cmd.cseq)

/-- A memory transfer whose checks pass waits at the head of its queue while no channel is free or a fill that it meets runs (R413, R421); a
CMD_MEM_WRITE waits for its data as well. -/
def Chip.headWaits (c : Chip) (e : Queued) : Bool :=
  !e.ready
    || (e.cmd.op == 0x30 && (e.passed || (c.check 0x30 e.cmd).isNone && (c.memWriteCheck e.cmd).isNone)
        && c.transferWaits e.cmd (e.cmd.params.length - 2))
    || (e.cmd.op == 0x31 && (c.check 0x31 e.cmd).isNone && !c.memReadBad e.cmd && c.transferWaits e.cmd (e.cmd.p 1))

/-- The command that a queue can give now. -/
def Chip.headOf (c : Chip) (q : Nat) : Option Cmd :=
  match c.queues.waiting.find? fun e => queueOf e.cmd == q with
  | some e => if c.headWaits e then none else some e.cmd
  | none => none

/-- R37, R412: the next command: the head of the first queue that can give one, from the queue after the one served last. DEDUCED (log 75): the
module's queue takes its turn after PART3's. -/
def Chip.nextCmd (c : Chip) : Option Cmd :=
  ((List.range 5).map fun i => (c.queues.last + 1 + i) % 5).findSome? c.headOf

/-- Have the checks of a waiting CMD_MEM_WRITE been made when its address and count arrived (R408)? -/
def Chip.earlyPassed (c : Chip) (cmd : Cmd) : Bool := c.queues.waiting.any fun e => e.cmd == cmd && e.passed

/-- A command leaves its queue, which has had its turn. -/
def Chip.takeCmd (c : Chip) (cmd : Cmd) : Chip :=
  { c with queues := { waiting := dropFirst (fun e => e.cmd == cmd) c.queues.waiting, last := queueOf cmd } }

/-- Is Badger serving the mailboxes (ACCEPT, Table 15.1)? -/
def Chip.serving (c : Chip) (ch : Nat) : Bool := (c.mbx ch).accept && !c.badger.restarting

/-- A command row: a command whose words have not come through the mailbox has arrived with the row, and joins its queue. Badger takes the
command when it is the next one (R412): answers whether it does. DESIGN CHOICE (log 75): a command that is not the next one stays in its queue
until a row of its own finds it next. -/
def Chip.turn (c : Chip) (cmd : Cmd) : Chip × Bool :=
  if !c.serving cmd.chain then (c, false)
  else
    let c0 := if c.waits cmd then c else c.enqueue cmd true false
    if c0.nextCmd = some cmd then (c0.takeCmd cmd, true) else (c0, false)

/-- Serve a command whose effect reaches stored words: when its turn has come, make the checks of R47, and run `f` on one that passes;
otherwise answer the status. -/
def serveBoth (c : Chip) (m : Memory) (op : Nat) (cmd0 : Cmd) (f : Chip → Memory → Cmd → Chip × Memory) : Chip × Memory :=
  let cmd := { cmd0 with op := op, chain := cmd0.chain % 2 }
  let t := c.turn cmd
  if !t.2 then (t.1, m)
  else match c.check op cmd with
    | some st => (t.1.respond cmd st [], m)
    | none => f t.1 m cmd

/-- Serve a command that moves no stored word. -/
def Chip.serve (c : Chip) (op : Nat) (cmd0 : Cmd) (f : Chip → Cmd → Chip) : Chip :=
  let cmd := { cmd0 with op := op, chain := cmd0.chain % 2 }
  let t := c.turn cmd
  if !t.2 then t.1
  else match c.check op cmd with
    | some st => t.1.respond cmd st []
    | none => f t.1 cmd

end Sys2Proof.Machine
end

