-- ==== Sys2Proof/Machine/Events.lean ====
section
/-! DEFINITION. Machine/Events.lean: the event routing block (R440-R445), the event words that a scan posts (R493-R497,
Table 20.1) and the management view (R371, R372). -/

namespace Sys2Proof.Machine

/-! ## The management view -/

/-- The view's entry of an inst: FLT_STAT, FLT_INFO, FLT_FENCE and GEN. -/
def Chip.viewEntry (c : Chip) (i : Nat) : Word × Word × Word × Nat := mget (0#64, 0#64, 0#64, 0) c.mgmt.view i

/-- What the inst itself holds. -/
def Chip.instView (c : Chip) (i : Nat) : Word × Word × Word :=
  (c.readReg (R.FLT_STAT i), c.readReg (R.FLT_INFO i), c.readReg (R.FLT_FENCE i))

/-- Does the entry agree with its inst? -/
def Chip.viewAgrees (c : Chip) (i : Nat) : Bool :=
  let e := c.viewEntry i
  c.instView i == (e.1, e.2.1, e.2.2.1)

/-- Rewrite an entry from its inst with GEN incremented. -/
def Chip.rewriteView (c : Chip) (i : Nat) : Chip :=
  let v := c.instView i
  let gen := ((c.viewEntry i).2.2.2 + 1) % 65536
  { c with mgmt := { c.mgmt with view := mset c.mgmt.view i (v.1, v.2.1, v.2.2, gen) } }

/-- R371: refresh an entry; a refresh that changes it increments its GEN. -/
def Chip.refreshView (c : Chip) (i : Nat) : Chip := if c.viewAgrees i then c else c.rewriteView i

/-- R372: re-read the inst, rewrite the entry with GEN incremented and raise EV002 with GEN and inst. -/
def Chip.recheckView (c : Chip) (i : Nat) : Chip :=
  let c1 := c.rewriteView i
  c1.raise 2 ((c1.viewEntry i).2.2.2 * 2 ^ 16 + i)

/-- Is a toggle of line k in flight or its bit pending? -/
def Chip.linePending (c : Chip) (k : Nat) : Bool :=
  c.faults.evFlight.contains k || bit (c.reg (R.EVR_PEND (k / 64))).toNat (k % 64)

/-! ## Lines -/

/-- Lines that Table 20.1 marks unused (R493). -/
def lineUnused (k : Nat) : Bool :=
  (decide (6 ≤ k) && decide (k ≤ 15)) || (decide (259 ≤ k) && decide (k ≤ 263)) || decide (278 ≤ k)

/-- Lines that Terind consumes (R497). -/
def lineConsumed (k : Nat) : Bool :=
  (decide (143 ≤ k) && decide (k ≤ 190)) || (decide (239 ≤ k) && decide (k ≤ 246))

/-- The partition of a line (R496): of the die that its source lies in, or the one that Table 20.1 names. -/
def Chip.linePart (c : Chip) (k : Nat) : Option Nat :=
  if k = 3 then some (mget 0 c.faults.evPar 3 / 2 % 4)
  else if 16 ≤ k ∧ k < 64 then c.partOf ((k - 16) / 12)
  else if 64 ≤ k ∧ k < 92 then c.partOf ((k - 64) / 7)
  else if 107 ≤ k ∧ k ≤ 110 then some (k - 107)
  else if 111 ≤ k ∧ k ≤ 114 then some (k - 111)
  else if 115 ≤ k ∧ k ≤ 118 then c.partOf (k - 115)
  else if 119 ≤ k ∧ k ≤ 122 then c.partOf (k - 119)
  else if 123 ≤ k ∧ k ≤ 130 then c.partOf ((k - 123) / 2)
  else if 139 ≤ k ∧ k ≤ 142 then c.partOf (k - 139)
  else if 191 ≤ k ∧ k ≤ 238 then c.partOf ((k - 191) / 12)
  else if 250 ≤ k ∧ k ≤ 257 then c.partOf ((k - 250) % 4)
  else none

/-- Bits that the source of a line reported with its raise and that no register holds. -/
def Chip.linePar (c : Chip) (k : Nat) : Nat := mget 0 c.faults.evPar k

/-- DETAIL of a line's event, from the state at service (R494, R495, Table 20.1). -/
def Chip.lineDetail (c : Chip) (k : Nat) : Nat :=
  if k = 0 then c.fld R.HUB_BOOT_STAT F.HUB_BOOT_STAT_READY_MS
  else if k = 3 then c.linePar k % 2
  else if 16 ≤ k ∧ k ≤ 106 then (c.reg (R.FLT_STAT (k - 16))).toNat / 2 ^ 32
  else if 107 ≤ k ∧ k ≤ 110 then (c.reg (R.PAR_STATUS (k - 107))).toNat % 2 ^ 32
  else if 115 ≤ k ∧ k ≤ 118 then c.fld (R.HOG_CTRL (k - 115)) F.HOG_CTRL_LAP_LIMIT
  else if 123 ≤ k ∧ k ≤ 130 then c.linePar k % 4 * 2 ^ 8 + c.fld (R.MEM_STAT (k - 123)) F.MEM_STAT_TEMP
  else if k = 131 ∨ k = 133 ∨ k = 135 ∨ k = 137 then min 65535 (c.port ((k - 131) / 2)).crcMs
  else if k = 132 ∨ k = 134 ∨ k = 136 ∨ k = 138 then
    let w := c.reg (R.LNK_STAT ((k - 132) / 2))
    fget w F.LNK_STAT_STATE + fget w F.LNK_STAT_RETRAINS * 2 ^ 8
  else if k = 247 then
    let w := c.reg R.PWR_STAT
    fget w F.PWR_STAT_FEED1_OK * 2 ^ 8 + fget w F.PWR_STAT_FEED1_V
  else if k = 248 then
    let w := c.reg R.PWR_STAT
    fget w F.PWR_STAT_FEED2_OK * 2 ^ 8 + fget w F.PWR_STAT_FEED2_V
  else if k = 249 then
    let w := c.reg R.PWR_STAT
    fget w F.PWR_STAT_PLIMIT * 2 ^ 16 + fget w F.PWR_STAT_INPUT_W
  else if 250 ≤ k ∧ k ≤ 253 then
    c.linePar k % 2 ^ 17 / 2 ^ 8 * 2 ^ 8 + c.fld (R.PWR_DIE (k - 250)) F.PWR_DIE_TJ
  else if 254 ≤ k ∧ k ≤ 257 then c.fld (R.PWR_DIE (k - 254)) F.PWR_DIE_TJ
  else if k = 270 then
    let w := c.reg R.SEC_TAMPER_STAT
    fget w F.SEC_TAMPER_STAT_MESH_SHORT * 4 + fget w F.SEC_TAMPER_STAT_MESH_OPEN * 2
      + fget w F.SEC_TAMPER_STAT_LID_OPEN + fget w F.SEC_TAMPER_STAT_COUNT * 2 ^ 16
  else c.linePar k

/-- R423, R496: post the event word of a line: to the owner chain of its partition, EV003 to both with its partition, any
other to both without one. -/
def Chip.postLine (c : Chip) (k : Nat) : Chip :=
  let det := c.lineDetail k
  let post := fun (c : Chip) (ch p : Nat) (v : Bool) => c.postEvent ch k p v det
  match c.linePart k with
  | some p => if k = 3 then post (post c 0 p true) 1 p true else post c (c.owner p) p true
  | none => post (post c 0 0 false) 1 0 false

/-- R442: serve one pending line: clear its bits, refresh the view of the inst that drives it, post its event. -/
def Chip.serveLine (c : Chip) (k : Nat) : Chip :=
  let p := R.EVR_PEND (k / 64)
  let g := R.EVR_MERGED (k / 64)
  if !bit (c.reg p).toNat (k % 64) then c
  else
    let keep := ~~~wNat (2 ^ (k % 64))
    let c1 := (c.setReg p (c.reg p &&& keep)).setReg g (c.reg g &&& keep)
    let c2 := if 16 ≤ k ∧ k ≤ 106 then c1.refreshView (k - 16) else c1
    if lineConsumed k then c2 else c2.postLine k

/-- R442: a scan of the pending lines in ascending order. Terind scans from HOST_READY on, because EV000 is the first event
of each queue (R431), and not while the pair restarts (R444). -/
def Chip.scan (c : Chip) : Chip :=
  if !c.flag R.HUB_BOOT_STAT F.HUB_BOOT_STAT_READY || c.badger.restarting then c
  else (List.range 288).foldl Chip.serveLine c

/-- R441: a toggle of line k arrives at the event routing block. -/
def Chip.arriveLine (c : Chip) (k par : Nat) : Chip :=
  if lineUnused k then c
  else
    let fl := c.faults.evFlight
    let c1 := if fl.contains k then { c with faults := { c.faults with evFlight := fl.erase k } }
      else { c with faults := { c.faults with evPar := mset c.faults.evPar k par } }
    let p := R.EVR_PEND (k / 64)
    let g := R.EVR_MERGED (k / 64)
    let one := wNat (2 ^ (k % 64))
    if bit (c1.reg p).toNat (k % 64) then c1.setReg g (c1.reg g ||| one) else c1.setReg p (c1.reg p ||| one)

/-- R445: Terind toggles the lines EV000 to EV015 whose bits it writes; the unused ones have no driver. -/
def Chip.swset (c : Chip) (w : Word) : Chip :=
  (onesOf 16 w.toNat).foldl (fun c k => if lineUnused k then c else c.raise k (c.linePar k)) c

/-! ## Meanings -/

/-- EVENT_RAISE (R441). `par` is what DETAIL reports of a source whose raise is not the model's own. -/
def execEventRaise (k : Fin 288) (par : Nat) (s : State) : Out := s.goChip (s.chip.arriveLine k.val par)

/-- EVENT_SCAN (R442). -/
def execEventScan (s : State) : Out := s.goChip s.chip.scan

/-- EVR_SWSET (R445). -/
def execEvrSwset (w : Word) (s : State) : Out := s.goChip (s.chip.swset w)

/-- VIEW_AUDIT (R371, R372): every entry is compared with its inst; one that differs while no event of its inst is
pending is a disagreement. -/
def execViewAudit (s : State) : Out :=
  s.goChip ((List.range 91).foldl (fun c i =>
    if c.viewAgrees i || c.linePending (16 + i) || c.badger.restarting then c else c.recheckView i) s.chip)

end Sys2Proof.Machine
end

