-- ==== Sys2Proof/Machine/MbxRows.lean ====
section
/-! DEFINITION. Machine/MbxRows.lean: the mailbox ports: command words (R404-R408), response words (R409, R410), event words
(R423, R424) and RESYNC (R406). -/

namespace Sys2Proof.Machine

/-! ## Command words -/

/-- The command that complete words spell (Table 15.2). -/
def cmdOfWords (ch : Nat) (l : List Word) : Cmd :=
  let w := (l.getD 0 0#64).toNat
  { chain := ch, op := bits w 59 52, part := bits w 51 50, mod := bit w 49, tag := bits w 47 32, cseq := bits w 31 16,
    params := l.drop 2 }

/-- Every bit that Table 15.2 marks 0 is 0. -/
def headZeros (w0 w1 : Word) : Bool :=
  !bit w0.toNat 48 && bits w0.toNat 15 0 == 0 && w1.toNat / 2 ^ 32 == 0

/-- R406: framing is lost: the words are dropped and ST_FRAMING is posted in the module form. -/
def Chip.loseFraming (c : Chip) (ch : Nat) : Chip :=
  let b := c.mbx ch
  let cseq := if b.expValid then b.expect else 0
  let b1 := b.post 0 St.framing 0 0 0 (c.rspWord1 cseq false true 0) []
  c.setMbx ch { b1 with framing := true, partialWords := [] }

/-- R406: is a header new, a duplicate (some false), or neither? -/
def Mbx.judge (b : Mbx) (w0 w1 : Word) : Option Bool :=
  let cseq := bits w0.toNat 31 16
  if !headZeros w0 w1 then none
  else
    let known := b.history.any fun h => h.cseq == cseq
    if (!b.expValid && !known) || (b.expValid && cseq == b.expect) then some true
    else if known then some false else none

/-- The words that a command being received still needs, header included. -/
def needWords (l : List Word) : Nat := 2 + (l.getD 1 0#64).toNat

/-- R406: accept a new header: EXPECT, EXP_VALID and the history of the last 64. -/
def Mbx.accept2 (b : Mbx) (cmd : Cmd) : Mbx :=
  { b with expect := (cmd.cseq + 1) % 65536, expValid := true,
           history := lastN 64 (b.history ++ [⟨cmd.cseq, cmd.op, cmd.part, cmd.mod, none⟩]) }

/-- R408, R412: the data of a CMD_MEM_WRITE that waits in its queue have arrived. -/
def Chip.fillQueued (c : Chip) (cmd : Cmd) : Chip :=
  let upd := fun (e : Queued) =>
    if !e.ready && e.cmd.chain == cmd.chain && e.cmd.cseq == cmd.cseq then { e with cmd := cmd, ready := true } else e
  { c with queues := { c.queues with waiting := c.queues.waiting.map upd } }

/-- R407, R408, R412: a command's last word has arrived. A duplicate is answered, or waits for the original's answer; an unknown opcode is answered
at once (R47 step 1), and so is a CMD_MEM_WRITE that has failed its checks; one that has passed them is complete in its queue; any other command
joins its queue. -/
def Chip.finishCmd (c : Chip) (ch : Nat) (l : List Word) (dup : Bool) : Chip :=
  let cmd := cmdOfWords ch l
  let b := c.mbx ch
  let c1 := c.setMbx ch { b with partialWords := [], partialDup := false }
  if dup then
    match (b.history.reverse.find? fun h => h.cseq == cmd.cseq).bind Hist.answer with
    | some a => c1.postDup cmd a
    | none => c1.setMbx ch { c1.mbx ch with dupWait := (c1.mbx ch).dupWait ++ [cmd] }
  else if (cmdSpec cmd.op).isNone then c1.respond cmd St.opcode []
  else match b.early.find? fun e => e.1 == cmd.cseq with
    | some (_, st) =>
      (c1.setMbx ch { c1.mbx ch with early := (c1.mbx ch).early.filter fun e => e.1 != cmd.cseq }).respond cmd st []
    | none => if c1.waits cmd then c1.fillQueued cmd else c1.enqueue cmd true false

/-- R408: when a CMD_MEM_WRITE has its address and count, its checks are made; one that passes joins its queue, and its checks stand from then
on. -/
def Chip.earlyWrite (c : Chip) (ch : Nat) (l : List Word) : Chip :=
  let cmd := cmdOfWords ch l
  let full := { cmd with params := cmd.params ++ List.replicate ((l.getD 1 0#64).toNat - 2) 0#64 }
  let b := c.mbx ch
  match (c.check 0x30 full).orElse fun _ => c.memWriteCheck full with
  | none => c.enqueue cmd false true
  | some st => c.setMbx ch { b with early := (b.early.filter fun e => e.1 != cmd.cseq) ++ [(cmd.cseq, st)] }

/-- A word written to MBX_CMD_DATA (R404-R408), and whether the mailbox took it (R405). -/
def Chip.mbxWrite (c : Chip) (ch : Nat) (w : Word) : Chip × Bool :=
  let b := c.mbx ch
  if !b.accept || b.framing || c.mbxFree ch == 0 then (c, false)
  else
    let l := b.partialWords ++ [w]
    let c1 := c.setMbx ch { b with partialWords := l }
    let r :=
      if l.length = 1 then
        if bits w.toNat 63 60 = 0xC then c1 else c1.loseFraming ch
      else if l.length = 2 then
        match b.judge (l.getD 0 0#64) w with
        | none => c1.loseFraming ch
        | some true =>
          let c2 := c1.setMbx ch ((c1.mbx ch).accept2 (cmdOfWords ch l))
          if needWords l = 2 then c2.finishCmd ch l false else c2
        | some false =>
          let c2 := c1.setMbx ch { c1.mbx ch with partialDup := true }
          if needWords l = 2 then c2.finishCmd ch l true else c2
      else
        let early := l.length == 4 && !b.partialDup && bits (l.getD 0 0#64).toNat 59 52 == 0x30
        let c2 := if early then c1.earlyWrite ch l else c1
        if needWords l ≤ l.length then c2.finishCmd ch l b.partialDup else c2
    (r, true)

/-- A partly received command is discarded (R406, R416). DEDUCED: the CSEQ of its accepted header stays in the history, and a
duplicate of it is answered ST_ABORTED (Table 15.4: abandoned). -/
def Mbx.dropPart (b : Mbx) : Mbx :=
  match b.partialWords with
  | w0 :: _ :: _ =>
    let cseq := bits w0.toNat 31 16
    let note := fun (h : Hist) => if h.cseq = cseq ∧ h.answer = none then { h with answer := some (St.aborted, none) } else h
    if b.partialDup then { b with partialWords := [], partialDup := false }
    else { b with partialWords := [], history := b.history.map note, early := b.early.filter fun e => e.1 != cseq }
  | _ => { b with partialWords := [], partialDup := false }

/-- Drop what a chain has sent of a command: its words, and its place in a queue. -/
def Chip.dropPart (c : Chip) (ch : Nat) : Chip :=
  let c1 := c.setMbx ch (c.mbx ch).dropPart
  { c1 with queues := { c1.queues with waiting := c1.queues.waiting.filter fun e => e.ready || e.cmd.chain != ch } }

/-- A write to MBX_CMD_CTRL: NOTIFY_EN, and RESYNC, which discards a partly received command and clears FRAMING and
EXP_VALID. The history survives (R406). -/
def Chip.mbxCtrl (c : Chip) (ch : Nat) (w : Word) : Chip :=
  let c1 := c.setMbx ch { c.mbx ch with notifyEn := bit w.toNat 8 }
  if bit w.toNat 0 then
    let c2 := c1.dropPart ch
    c2.setMbx ch { c2.mbx ch with framing := false, expValid := false }
  else c1

/-! ## Response and event words -/

/-- The not-ready word (R409). -/
def notReady : Word := 0xFFFFFFFF00000000#64

/-- R409, R410: pop one response word: the word, and the mailbox after it. -/
def Mbx.pop (b : Mbx) : Word × Mbx :=
  match b.rspQ with
  | (w :: t) :: r =>
    let q := if t.isEmpty then r else t :: r
    let b1 := { b with rspQ := q, mid := !t.isEmpty }
    if b.mid then (w, { b1 with kept := lastN 4096 (b.kept ++ [w]), widx := b.widx + 1 })
    else (w, { b1 with kept := [w], widx := 1, curHead := w })
  | _ => (notReady, b)

/-- R410: move the read position back `k` words; a larger `k` than KEPT has no effect. -/
def Mbx.back (b : Mbx) (k : Nat) : Mbx :=
  if k = 0 ∨ b.kept.length < k then b
  else
    let ws := lastN k b.kept
    let q := if b.mid then (match b.rspQ with | h :: r => (ws ++ h) :: r | [] => [ws]) else ws :: b.rspQ
    { b with rspQ := q, kept := b.kept.take (b.kept.length - k), widx := b.widx - k, mid := b.widx - k != 0,
             notify := b.notify || (b.notifyEn && b.avail == 0) }

/-- R423, R424: pop one event word. Once room frees after drops, EV004 takes the next ESEQ of the chain with the number of
events dropped. -/
def Chip.popEvent (c : Chip) (ch : Nat) : Word × Chip :=
  let b := c.mbx ch
  match b.evtQ with
  | [] => (notReady, c)
  | w :: r =>
    let c1 := c.setMbx ch { b with evtQ := r, dropped := 0 }
    (w, if b.dropped = 0 then c1 else c1.postEvent ch 4 0 false (min b.dropped 8191))

/-! ## Meanings -/

/-- MBX_CMD_DATA_WRITE (R404). -/
def execMbxCmdDataWrite (ch : Fin 2) (w : Word) (s : State) : Out := s.goChip (s.chip.mbxWrite ch.val w).1

/-- MBX_RESYNC (R406): a write to MBX_CMD_CTRL. -/
def execMbxResync (ch : Fin 2) (w : Word) (s : State) : Out := s.goChip (s.chip.mbxCtrl ch.val w)

/-- MBX_RSP_DATA_READ (R409). -/
def execMbxRspDataRead (ch : Fin 2) (s : State) : Out :=
  s.goChip (s.chip.setMbx ch.val (s.chip.mbx ch.val).pop.2)

/-- MBX_RSP_BACK (R410): a write to MBX_RSP_CTRL. -/
def execMbxRspBack (ch : Fin 2) (w : Word) (s : State) : Out :=
  s.goChip (s.chip.setMbx ch.val ((s.chip.mbx ch.val).back (bits w.toNat 12 0)))

/-- MBX_EVT_DATA_READ (R423, R424). -/
def execMbxEvtDataRead (ch : Fin 2) (s : State) : Out := s.goChip (s.chip.popEvent ch.val).2

end Sys2Proof.Machine
end

