-- ==== Sys2Proof/Machine/Link.lean ====
section
/-! DEFINITION. Machine/Link.lean: the Kongerax chain link (chapter 14): frames and their CRC (R377, R378), sequence,
acknowledgement and credits (R379-R383), routing and relaying (R385, R386), enumeration (R387-R390), the register window
(R391-R395), training and retraining (R396-R398), LNK_CTRL (R401) and NOTIFY frames (R425). -/

namespace Sys2Proof.Machine

/-! ## Frames -/

/-- H0 of a frame (Table 14.2). -/
def h0Word (f : Frame) : Nat :=
  f.dst % 64 * 2 ^ 58 + f.src % 64 * 2 ^ 52 + f.typ % 16 * 2 ^ 48 + f.seq % 4096 * 2 ^ 36 + f.ack % 4096 * 2 ^ 24
    + b2n f.nak * 2 ^ 23 + f.data.length % 128 * 2 ^ 16 + f.tag % 256 * 2 ^ 8 + 0x78

/-- The CRC of a frame (R378): over H0, H1 and the data words, byte 0 of each first. -/
def frameCrc (f : Frame) : BitVec 32 :=
  BitVec.ofNat 32 (crc32 (((h0Word f :: f.h1.toNat :: f.data.map BitVec.toNat).map fun w => bytesLE 8 w).flatten))

/-- Blocks of a frame (R377). -/
def frameBlocks (f : Frame) : Nat := 4 * ((3 + f.data.length + 3) / 4)

/-- A new frame; the link fields are filled when it is sent. -/
def newFrame (typ dst src tag : Nat) (h1 : Word) (data : List Word) : Frame :=
  ⟨typ, dst, src, tag, 0, 0, false, h1, data, 0#32⟩

/-! ## Blocks and lanes (R375, R376) -/

/-- The block times of 2.56 ns that have passed by a time in nanoseconds. -/
def blockTimes (ns : Nat) : Nat := ns * 100 / 256

/-- Have `n` block times passed since `t`? -/
def Chip.blocksPassed (c : Chip) (t n : Nat) : Bool := decide (n ≤ blockTimes (c.now - t))

/-- A block: control or data, and its 64 payload bits. -/
structure Block where
  control : Bool
  word : Nat
  deriving DecidableEq, Repr

/-- The idle control block of Clause 82, type 0x1E. -/
def idleBlock : Block := ⟨true, 0x1E⟩

/-- R376: the alignment block of a lane: type 0x4B, the lane, 0xA and the count. -/
def alignBlock (lane count : Nat) : Block := ⟨true, 0x4B + lane * 2 ^ 8 + 0xA * 2 ^ 12 + count % 2 ^ 48 * 2 ^ 16⟩

/-- R377: the blocks of a frame: H0, a control block, then H1, the data words and T, then idle blocks up to a multiple of 4. -/
def blocksOf (f : Frame) : List Block :=
  [⟨true, h0Word f⟩, ⟨false, f.h1.toNat⟩] ++ f.data.map (fun w => ⟨false, w.toNat⟩) ++ [⟨false, f.crc.toNat⟩]
    ++ List.replicate (frameBlocks f - (3 + f.data.length)) idleBlock

/-- The self-synchronising scrambler 1 + x^39 + x^58: 64 bits in order of transmission, lowest first; bit k of the state is the scrambled bit
sent k + 1 bits ago. -/
def scramble (st w : Nat) : Nat × Nat :=
  (List.range 64).foldl (fun r i =>
    let b := (w / 2 ^ i + r.2 / 2 ^ 38 + r.2 / 2 ^ 57) % 2
    (r.1 + b * 2 ^ i, (2 * r.2 + b) % 2 ^ 58)) (0, st)

/-- The receiver's inverse: its state is made of the scrambled bits that it has received. -/
def descramble (st w : Nat) : Nat × Nat :=
  (List.range 64).foldl (fun r i =>
    (r.1 + (w / 2 ^ i + r.2 / 2 ^ 38 + r.2 / 2 ^ 57) % 2 * 2 ^ i, (2 * r.2 + w / 2 ^ i % 2) % 2 ^ 58)) (0, st)

/-- 64B/66B: the two bits of the sync header, unscrambled and sent first (01 for data, 10 for control), below the scrambled payload. -/
def codeBlock (st : Nat) (b : Block) : Nat × Nat :=
  let r := scramble st b.word
  ((if b.control then 1 else 2) + 4 * r.1, r.2)

/-- The scramblers of a port's lanes now: as the last transmission left them, or, when time has passed since and the lanes have carried idle
blocks, open (log 82). -/
def Chip.scramblers (c : Chip) (p : Nat) : List Nat :=
  let x := c.port p
  if x.lineAt = some c.now then x.scram else (List.range 4).map fun k => (Config.idleScrambler p k c.now).toNat

/-- R376: blocks dealt to the lanes in rotation, lane 0 first, and coded with each lane's scrambler. -/
def dealBlocks (st : List Nat) (l : List Block) : List (Nat × Nat) × List Nat :=
  l.zipIdx.foldl (fun r e =>
    let k := e.2 % 4
    let x := codeBlock (r.2.getD k 0) e.1
    (r.1 ++ [(k, x.1)], r.2.set k x.2)) ([], st)

/-- Blocks leave a port. -/
def Chip.sendBlocks (c : Chip) (p : Nat) (l : List Block) : Chip :=
  let r := dealBlocks (c.scramblers p) l
  c.setPort p { c.port p with line := r.1, scram := r.2, lineAt := some c.now }

/-! ## Port registers -/

/-- A field of LNK_STAT of a port. -/
def Chip.lnk (c : Chip) (p : Nat) (f : Fld) : Nat := c.fld (R.LNK_STAT p) f

/-- Is the port UP? -/
def Chip.portUp (c : Chip) (p : Nat) : Bool := c.lnk p F.LNK_STAT_UP == 1

/-- Is the down-port held (DOWN_EN 0)? An up-port never is. -/
def Chip.portHeld (c : Chip) (p : Nat) : Bool := p % 2 == 1 && !c.flag (R.LNK_CTRL p) F.LNK_CTRL_DOWN_EN

/-- The module's address on a chain. -/
def Chip.addr (c : Chip) (ch : Nat) : Nat := c.fld (R.LNK_ADDR ch) F.LNK_ADDR_ADDR

/-- Take an address on a chain; 0x3F is unassigned (R387). -/
def Chip.setAddr (c : Chip) (ch a : Nat) : Chip :=
  c.setReg (R.LNK_ADDR ch) (wNat (fat F.LNK_ADDR_ASSIGNED (b2n (a != 0x3F)) + fat F.LNK_ADDR_ADDR a))

/-- Set STATE, UP and LANE_LOCK of a port: no lane is in block lock when a step begins that comes before INIT. -/
def Chip.setPortState (c : Chip) (p st : Nat) : Chip :=
  let w := c.reg (R.LNK_STAT p)
  let w := fput (fput w F.LNK_STAT_STATE st) F.LNK_STAT_UP (b2n (st == 4))
  c.setReg (R.LNK_STAT p) (fput w F.LNK_STAT_LANE_LOCK (if st = 3 ∨ st = 4 then 0xF else 0))

/-- Count in a field of LNK_ERR (Table 14.11). -/
def Chip.lnkErr (c : Chip) (p : Nat) (f : Fld) : Chip := c.addFld (R.LNK_ERR p) f 1

/-- The receiver discards `k` frames of its buffer, which frees their places (R382). -/
def Port.freeMore (x : Port) (k now : Nat) : Port :=
  if k = 0 then x
  else { x with freed := (x.freed + k) % 65536, freeAt := match x.freeAt with | some t => some t | none => some now }

/-- R397: held frames are discarded. -/
def Port.dropHeld (x : Port) (now : Nat) : Port := { x.freeMore x.held.length now with held := [] }

/-- R397: a port goes down and trains again; held frames are discarded, the rest is kept. -/
def Chip.retrain (c : Chip) (p : Nat) (lock : Bool) : Chip :=
  let x := c.port p
  let down := match x.downSince with | some t => some t | none => if c.portUp p then some c.now else none
  let c1 := (c.setPort p { x.dropHeld c.now with downSince := down }).setPortState p 1
  let c2 := c1.addFld (R.LNK_STAT p) F.LNK_STAT_RETRAINS 1
  let c3 := if lock then c2.lnkErr p F.LNK_ERR_LOCK_LOSS else c2
  c3.raise (132 + 2 * p)

/-! ## Acknowledgement and credits -/

/-- Frames that an ACK of `a` leaves unacknowledged: those whose SEQ lies within the 64 values from `a` on. -/
def ackRest (a : Nat) (l : List SentFrame) : List SentFrame :=
  l.filter fun e => decide ((e.frame.seq + 4096 - a) % 4096 < 64)

/-- R379, R381: the ACK and NAK fields of a received frame. A NAK asks for the frame that it names once more; a frame that has been
sent 8 times makes the port retrain. -/
def Chip.takeAck (c : Chip) (p : Nat) (f : Frame) : Chip :=
  let x := c.port p
  let rest := ackRest f.ack x.retry
  let adv := decide (rest.length < x.retry.length)
  let asked := f.nak && rest.any fun e => e.frame.seq == f.ack
  let worn := rest.any fun e => e.frame.seq == f.ack && decide (8 ≤ e.sends)
  let l := if asked then rest.map fun e => if e.frame.seq = f.ack then { e with due := true } else e else rest
  let c1 := c.setPort p { x with retry := l, lastAck := if adv then c.now else x.lastAck }
  if asked && worn then c1.retrain p false else c1

/-- Frames in the receive buffer of a port (R382): held, accepted and not yet taken, and taken and not yet relayed by the chain's other
port. -/
def Chip.occupied (c : Chip) (p : Nat) : Nat :=
  let x := c.port p
  x.held.length + x.taken.length + ((c.port (if p % 2 = 0 then p + 1 else p - 1)).waiting.filter fun o => !o.own).length

/-- The receiver frees a frame. -/
def Chip.freeFrame (c : Chip) (p : Nat) : Chip :=
  let x := c.port p
  c.setPort p { x with freed := (x.freed + 1) % 65536,
                       freeAt := match x.freeAt with | some t => some t | none => some c.now }

/-- A frame is discarded: it is counted and, since it came with a credit, freed. -/
def Chip.discardFrame (c : Chip) (p : Nat) : Chip := (c.lnkErr p F.LNK_ERR_DISCARD).freeFrame p

/-- The LINK frame of a port (R379, R380, R382, R397): SEQ of the next frame, ACK RX_EXPECT, FREED; 0xFFF for both numbers at the INIT of a
port that has restarted its numbering. -/
def Chip.linkFrame (c : Chip) (p : Nat) (nak : Bool) : Frame :=
  let x := c.port p
  let new := x.restarted && c.lnk p F.LNK_STAT_STATE == 3
  let f : Frame := { newFrame 0 0 0 0 (wNat x.freed) [] with
    seq := if new then 0xFFF else c.lnk p F.LNK_STAT_TX_NEXT, ack := if new then 0xFFF else c.lnk p F.LNK_STAT_RX_EXPECT, nak := nak }
  { f with crc := frameCrc f }

/-- A LINK frame leaves the port (R380, R382): it reports FREED. -/
def Chip.sendLink (c : Chip) (p : Nat) (nak : Bool) : Chip :=
  let x := c.port p
  let f := c.linkFrame p nak
  (c.setPort p { x with reported := x.freed, freeAt := none, lastReport := c.now, ackDue := false, linkSent := some f }).sendBlocks p (blocksOf f)

/-- R380: a NAK for RX_EXPECT, not a second one within 4,096 block times. -/
def Chip.sendNak (c : Chip) (p : Nat) : Chip :=
  let x := c.port p
  let e := c.lnk p F.LNK_STAT_RX_EXPECT
  let again := match x.nak with
    | some (k, t) => k != e || c.blocksPassed t 4096
    | none => true
  if again then (c.setPort p { x with nak := some (e, c.now) }).sendLink p true else c

/-! ## Sending -/

/-- Queue a response or notification of the module itself on a chain's up-port. -/
def Chip.queueOwn (c : Chip) (ch : Nat) (f : Frame) (hold : Bool) : Chip :=
  let p := 2 * ch
  c.setPort p { c.port p with waiting := (c.port p).waiting ++ [⟨f, true, hold⟩] }

/-- Answer a request with REJECT (Table 14.7). -/
def Chip.reject (c : Chip) (ch : Nat) (f : Frame) (status accepted : Nat) (hold : Bool := true) : Chip :=
  c.queueOwn ch (newFrame 6 0 0x3F f.tag
    (wNat (status * 2 ^ 56 + accepted % 256 * 2 ^ 48 + f.h1.toNat % 2 ^ 48)) []) hold

/-- Answer a request with RDATA. -/
def Chip.rdata (c : Chip) (ch : Nat) (f : Frame) (data : List Word) : Chip :=
  c.queueOwn ch (newFrame 5 0 0x3F f.tag (wNat (f.h1.toNat % 2 ^ 48)) data) true

/-- May a waiting frame be sent: it is relayed, or the module has an address or need not wait for one? -/
def Chip.sendable (c : Chip) (p : Nat) (o : OutFrame) : Bool := !o.own || !o.hold || c.addr (p / 2) != 0x3F

/-- The schedule period of a port now (R383): 272 block times, counted from when it came up. -/
def Chip.periodOf (c : Chip) (p : Nat) : Nat := (c.now - (c.port p).upAt) * 100 / (272 * 256)

/-- R382: a frame that has been relayed leaves the receive buffer of the chain's other port. -/
def Chip.relayed (c : Chip) (p : Nat) (o : OutFrame) : Chip :=
  if o.own then c else c.freeFrame (if p % 2 = 0 then p + 1 else p - 1)

/-- Give a frame its place on the hop: SEQ, ACK, SRC and CRC (R379, R386). -/
def Chip.stamp (c : Chip) (p seq : Nat) (o : OutFrame) : Frame :=
  let f := { o.frame with seq := seq, ack := c.lnk p F.LNK_STAT_RX_EXPECT, nak := false,
                          src := if o.own then c.addr (p / 2) else o.frame.src }
  { f with crc := frameCrc f }

/-- R381-R383: a retransmission goes before any new frame; both need a credit; new frames of a period take at most 884 blocks
and the retry buffer holds 64. A relayed frame that is sent leaves its receive buffer (R382). -/
def Chip.transmit (c : Chip) (p : Nat) : Chip :=
  let x := c.port p
  let cr := c.lnk p F.LNK_STAT_CREDITS
  if !c.portUp p || cr == 0 then c
  else
    let c0 := c.setFld (R.LNK_STAT p) F.LNK_STAT_CREDITS (cr - 1)
    match x.retry.find? SentFrame.due with
    | some e =>
      let f := { e.frame with ack := c.lnk p F.LNK_STAT_RX_EXPECT, nak := false }
      let again : SentFrame := ⟨{ f with crc := frameCrc f }, e.sends + 1, false⟩
      ((c0.setPort p { x with retry := x.retry.map fun k => if k.frame.seq = e.frame.seq then again else k }).sendBlocks p
        (blocksOf again.frame)).lnkErr p F.LNK_ERR_RETX
    | none =>
      match x.waiting.find? (c.sendable p) with
      | none => c
      | some o =>
        let used := if x.period = c.periodOf p then x.blocks else 0
        let n := frameBlocks o.frame
        if 64 ≤ x.retry.length ∨ 884 < used + n then c
        else
          let seq := c.lnk p F.LNK_STAT_TX_NEXT
          let f := c.stamp p seq o
          (((c0.setPort p { x with
            retry := x.retry ++ [⟨f, 1, false⟩],
            waiting := dropFirst (fun k => k == o) x.waiting,
            lastAck := if x.retry.isEmpty then c.now else x.lastAck,
            period := c.periodOf p, blocks := used + n }).sendBlocks p (blocksOf f)).setFld (R.LNK_STAT p) F.LNK_STAT_TX_NEXT
              ((seq + 1) % 4096)).relayed p o

/-! ## Register window -/

/-- R485, R395: the registers of compute dies that P2 and P3 refuse, and a transition into or out of them: all but a read of PWR_DIE or
CLK_CLUSTER. -/
def Chip.powerRefused (c : Chip) (die block : Nat) (read : Bool) : Bool :=
  decide (die ≤ 3) && !(read && (block == 0x06 || block == 0x07))
    && (decide (2 ≤ c.fld R.PWR_STAT F.PWR_STAT_STATE)
      || (c.flag R.PWR_STAT F.PWR_STAT_BUSY && decide (2 ≤ c.fld R.PWR_STAT F.PWR_STAT_TARGET)))

/-- R395: is a frame other than RD to the register at an address refused in the present power state? -/
def Chip.windowPower (c : Chip) (a : Nat) : Bool :=
  match regDecode a with
  | some (d, die, _, _) => c.powerRefused die d.block false
  | none => false

/-- A host's read of a register through the window of a chain (R13, R391, R392): the word, or the status of a REJECT. -/
def Chip.hostRead (c : Chip) (ch a : Nat) : Except Nat (Word × Chip) :=
  match (if a % 8 = 0 ∧ a / 2 ^ 44 = 7 then regDecode a else none) with
  | none => .error 2
  | some (d, die, i, _) =>
    if c.powerRefused die d.block true then .error 3
    else if d.block = 0x04 then .ok (0#64, c)
    else if d.block = 0x02 ∧ d.off = 0x20 then
      if i = ch then .ok ((c.mbx ch).pop.1, c.setMbx ch (c.mbx ch).pop.2) else .error 6
    else if d.block = 0x02 ∧ d.off = 0x40 then
      if i = ch then .ok (c.popEvent ch) else .error 6
    else .ok (c.readReg a, c)

/-- R401, Table 14.9: a write of LNK_CTRL: the limit, DOWN_EN of a down-port (0 holds it, 1 lets it train again) and RETRAIN. -/
def Chip.writeLnkCtrl (c : Chip) (p : Nat) (w : Word) : Chip :=
  let a := R.LNK_CTRL p
  let was := c.portHeld p
  let w1 := fput (c.reg a) F.LNK_CTRL_CRC_EVT_LIMIT (fget w F.LNK_CTRL_CRC_EVT_LIMIT)
  let c1 := c.setReg a (if p % 2 = 1 then fput w1 F.LNK_CTRL_DOWN_EN (fget w F.LNK_CTRL_DOWN_EN) else w1)
  let now := c1.portHeld p
  let c2 := if now && !was then
      let x := c1.port p
      ((c1.setPort p { x.dropHeld c.now with downSince := if c1.portUp p then some c1.now else x.downSince }).setPortState p
        5).raise (132 + 2 * p)
    else if was && !now then (c1.setPortState p 1).raise (132 + 2 * p)
    else c1
  if bit w.toNat 1 && !now then c2.retrain p false else c2

/-- A write of a mailbox register: MBX_CMD_DATA, MBX_CMD_CTRL, MBX_RSP_CTRL, and LOST of MBX_EVT_HEAD. Answers false when the mailbox
refuses the word. -/
def Chip.writeMbx (c : Chip) (ch off : Nat) (w : Word) : Chip × Bool :=
  match off with
  | 0x00 => c.mbxWrite ch w
  | 0x10 => (c.mbxCtrl ch w, true)
  | 0x30 => (c.setMbx ch ((c.mbx ch).back (bits w.toNat 12 0)), true)
  | 0x38 => (if bit w.toNat 62 then c.setMbx ch { c.mbx ch with evtLost := false } else c, true)
  | _ => (c, true)

/-- A host's write of a register (R13, R391, R392): a REJECT status, or the module after it with whether the mailbox took
the word. -/
def Chip.hostWrite (c : Chip) (ch a : Nat) (w : Word) : Except Nat (Chip × Bool) :=
  match (if a % 8 = 0 ∧ a / 2 ^ 44 = 7 then regDecode a else none) with
  | none => .error 2
  | some (d, die, i, k) =>
    if c.powerRefused die d.block false then .error 3
    else if d.block = 0x02 then
      if i = ch then .ok (c.writeMbx ch d.off w) else .error 1
    else if d.block = 0x03 then
      if d.off < 0x400 then
        if i / 2 = ch then .ok (if d.off = 0 then c.writeLnkCtrl i w else c, true) else .error 1
      else if d.off = 0x400 ∧ k ≠ ch then .error 1 else .ok (c, true)
    else .error 1

/-- Is H1 of a request well formed, and N right for its TYPE (Tables 14.3 and 14.7)? -/
def requestOk (f : Frame) : Bool :=
  let h := f.h1.toNat
  match f.typ with
  | 1 => f.data.isEmpty && h / 2 ^ 48 == 0
  | 2 => f.data.length == 1 && h / 2 ^ 48 == 0
  | 3 => decide (1 ≤ f.data.length) && decide (f.data.length ≤ 64) && h / 2 ^ 48 == 0
  | 4 => f.data.isEmpty && h / 2 ^ 56 == 0 && decide (1 ≤ bits h 55 48) && decide (bits h 55 48 ≤ 64)
  | 7 => f.data.isEmpty
  | _ => true

/-- The block and offset of a register of the chain's own mailbox set. -/
def ownMbx (ch a : Nat) : Option Nat :=
  match (if a % 8 = 0 ∧ a / 2 ^ 44 = 7 then regDecode a else none) with
  | some (d, _, i, _) => if d.block = 0x02 ∧ i = ch then some d.off else none
  | none => none

/-- Pop `k` words of an own mailbox port (R394). -/
def popWords (c : Chip) (ch off : Nat) : Nat → List Word × Chip
  | 0 => ([], c)
  | k + 1 =>
    let r := popWords c ch off k
    if off = 0x20 then (r.1 ++ [(r.2.mbx ch).pop.1], r.2.setMbx ch (r.2.mbx ch).pop.2)
    else (r.1 ++ [(r.2.popEvent ch).1], (r.2.popEvent ch).2)

/-- Write words to MBX_CMD_DATA in order until one is refused: how many were taken (R394). -/
def pushWords (c : Chip) (ch : Nat) : List Word → Nat → Chip × Nat × Bool
  | [], n => (c, n, true)
  | w :: r, n =>
    let x := c.mbxWrite ch w
    if x.2 then pushWords x.1 ch r (n + 1) else (x.1, n, false)

/-- Apply a request frame that is addressed to the module (section 14.6). -/
def Chip.applyRequest (c : Chip) (ch : Nat) (f : Frame) : Chip :=
  let a := f.h1.toNat % 2 ^ 48
  if !requestOk f then c.reject ch f 7 0
  else match f.typ with
  | 7 => c.queueOwn ch (newFrame 8 0 0x3F f.tag f.h1 []) true
  | 1 => match c.hostRead ch a with
    | .ok (w, c1) => c1.rdata ch f [w]
    | .error st => c.reject ch f st 0
  | 2 => match c.hostWrite ch a (f.data.headD 0#64) with
    | .ok (c1, true) => c1
    | .ok (c1, false) => c1.reject ch f 5 0
    | .error st => c.reject ch f st 0
  | 3 =>
    if a % 8 ≠ 0 ∨ a / 2 ^ 44 ≠ 7 ∨ regDecode a = none then c.reject ch f 2 0
    else if c.windowPower a then c.reject ch f 3 0
    else if ownMbx ch a ≠ some 0 then c.reject ch f 4 0
    else
      let r := pushWords c ch f.data 0
      if r.2.2 then r.1 else r.1.reject ch f 5 r.2.1
  | 4 =>
    if a % 8 ≠ 0 ∨ a / 2 ^ 44 ≠ 7 ∨ regDecode a = none then c.reject ch f 2 0
    else if c.windowPower a then c.reject ch f 3 0
    else if ownMbx (1 - ch) a = some 0x20 ∨ ownMbx (1 - ch) a = some 0x40 then c.reject ch f 6 0
    else match ownMbx ch a with
    | some 0x20 => let r := popWords c ch 0x20 (bits f.h1.toNat 55 48); r.2.rdata ch f r.1
    | some 0x40 => let r := popWords c ch 0x40 (bits f.h1.toNat 55 48); r.2.rdata ch f r.1
    | _ => c.reject ch f 4 0
  | _ => c

/-! ## Routing (Table 14.6) -/

/-- What Table 14.6 does with a frame. -/
inductive RouteAct where
  | discard | apply | enumerate | unassign | relay | noroute
  deriving DecidableEq, Repr

/-- May frames be relayed down a chain? -/
def Chip.downOk (c : Chip) (ch : Nat) : Bool := c.portUp (2 * ch + 1) && !c.portHeld (2 * ch + 1)

/-- Table 14.6, row by row; a LINK frame is never routed. -/
def Chip.routeAct (c : Chip) (p : Nat) (f : Frame) : RouteAct :=
  let own := c.addr (p / 2)
  if 0xD < f.typ ∨ f.typ = 0 then .discard
  else if p % 2 = 0 then
    if f.src ≠ 0 then .discard
    else if f.dst = own ∧ [1, 2, 3, 4, 7].contains f.typ then .apply
    else if f.dst = 0x3F ∧ f.typ = 9 ∧ own = 0x3F then .enumerate
    else if f.dst = 0x3E then (if f.typ = 0xB then .unassign else .discard)
    else if f.dst ≠ 0 ∧ f.dst ≠ own then (if c.downOk (p / 2) then .relay else .noroute)
    else .discard
  else if f.dst = 0 ∧ [5, 6, 8, 0xA, 0xC, 0xD].contains f.typ then .relay
  else .discard

/-- Queue a frame on the other port of the chain (R386). -/
def Chip.relayOn (c : Chip) (p : Nat) (f : Frame) : Chip :=
  let q := if p % 2 = 0 then p + 1 else p - 1
  c.setPort q { c.port q with waiting := (c.port q).waiting ++ [⟨f, false, false⟩] }

/-- R388: an unassigned module takes the offered address and answers with ENUM_ACK (Table 14.4). -/
def Chip.enumerate (c : Chip) (ch : Nat) (f : Frame) : Chip :=
  let a := bits f.h1.toNat 5 0
  if a = 0 ∨ 0x3D < a then c.reject ch f 2 0 false
  else
    let c1 := c.setAddr ch a
    let w2 := c.addr (1 - ch) * 2 ^ 16 + b2n (c.portUp (2 * ch + 1)) * 2 ^ 9 + ch * 2 ^ 8 + c.pins.slotId % 8
    c1.queueOwn ch (newFrame 0xA 0 0x3F f.tag 0#64
      [wNat c.fuses.serial, wNat (c.fuses.serial / 2 ^ 64), wNat w2]) false

/-- R390: the frames that the module owes the host on a chain wait until it has an address again. -/
def Chip.holdOwed (c : Chip) (ch : Nat) : Chip :=
  let x := c.port (2 * ch)
  c.setPort (2 * ch) { x with waiting := x.waiting.map fun o => if o.own then { o with hold := true } else o }

/-- What Table 14.6 makes of an accepted frame. -/
def Chip.routeFrame (c : Chip) (p : Nat) (f : Frame) : Chip :=
  match c.routeAct p f with
  | .discard => c.lnkErr p F.LNK_ERR_DISCARD
  | .apply => c.applyRequest (p / 2) f
  | .enumerate => c.enumerate (p / 2) f
  | .unassign =>
    let c1 := (c.setAddr (p / 2) 0x3F).holdOwed (p / 2)
    if c.downOk (p / 2) then c1.relayOn p f else c1
  | .relay => c.relayOn p f
  | .noroute => c.queueOwn (p / 2) (newFrame 0xC 0 0x3F f.tag (wNat (h0Word f / 256)) []) false

/-- Frames at the head of the accepted ones that Table 14.6 discards leave at once. -/
def Chip.settle (c : Chip) (p : Nat) : Nat → Chip
  | 0 => c
  | n + 1 =>
    match (c.port p).taken with
    | [] => c
    | f :: r =>
      if c.routeAct p f = .discard then
        Chip.settle ((c.setPort p { c.port p with taken := r }).discardFrame p) p n
      else c

/-- A row that takes frame `f` from port `p`: the oldest accepted frame is routed (R385, R393: in the order of acceptance). A frame that is
applied is freed now, one that is relayed once it has been sent on (R382). -/
def Chip.takeFrame (c : Chip) (p : Nat) (ok : Nat → Bool) (f : Frame) : Chip :=
  match (c.port p).taken with
  | [] => c
  | g :: r =>
    if g = f ∧ ok f.typ then
      let kept := match c.routeAct p f with
        | .relay => true
        | .unassign => c.downOk (p / 2)
        | _ => false
      let c1 := (c.setPort p { c.port p with taken := r }).routeFrame p f
      let c2 := if kept then c1 else c1.freeFrame p
      c2.settle p r.length
    else c

/-! ## Receiving (R379-R382) -/

/-- A frame with a wrong CRC: counted; the port error event at the limit of its 1 ms interval (Table 14.8). DEDUCED (log 83): it came with a
credit, unless its TYPE is LINK, and its place is freed. -/
def Chip.badCrc (c : Chip) (p typ : Nat) : Chip :=
  let c := if typ = 0 then c else c.freeFrame p
  let x := c.port p
  let iv := c.now / 1000000
  let n := if x.crcIv = iv then x.crcMs + 1 else 1
  let c1 := (c.setPort p { x with crcIv := iv, crcMs := n }).lnkErr p F.LNK_ERR_CRC
  let c2 := if n = max 1 (c.fld (R.LNK_CTRL p) F.LNK_CTRL_CRC_EVT_LIMIT) then c1.raise (131 + 2 * p) else c1
  c2.sendNak p

/-- Accept held frames that now follow in order. -/
def Chip.acceptHeld (c : Chip) (p : Nat) : Nat → Chip
  | 0 => c
  | n + 1 =>
    let x := c.port p
    let e := c.lnk p F.LNK_STAT_RX_EXPECT
    match x.held.find? fun f => f.seq == e with
    | none => c
    | some f =>
      Chip.acceptHeld ((c.setPort p { x with held := x.held.filter fun g => g.seq != e, taken := x.taken ++ [f] }).setFld
        (R.LNK_STAT p) F.LNK_STAT_RX_EXPECT ((e + 1) % 4096)) p n

/-- R379: a frame with a right CRC other than a LINK frame. -/
def Chip.takeSeq (c : Chip) (p : Nat) (f : Frame) : Chip :=
  let x := c.port p
  let e := c.lnk p F.LNK_STAT_RX_EXPECT
  let d := (f.seq + 4096 - e) % 4096
  if 32 ≤ c.occupied p then c.lnkErr p F.LNK_ERR_DISCARD
  else if d = 0 then
    let c1 := (c.setPort p { x with taken := x.taken ++ [f] }).setFld (R.LNK_STAT p) F.LNK_STAT_RX_EXPECT ((e + 1) % 4096)
    let c2 := c1.acceptHeld p 64
    c2.settle p (c2.port p).taken.length
  else if d ≤ 64 then
    let c1 := if x.held.any fun g => g.seq == f.seq then c.freeFrame p
      else c.setPort p { x with held := x.held ++ [f] }
    c1.sendNak p
  else if 2048 ≤ d then
    let c1 := c.freeFrame p
    c1.setPort p { c1.port p with ackDue := true }
  else c.discardFrame p

/-- R382: a LINK frame's ACK, NAK and FREED. -/
def Chip.takeLink (c : Chip) (p : Nat) (f : Frame) : Chip :=
  let c1 := c.takeAck p f
  let x := c1.port p
  let fr := bits f.h1.toNat 15 0
  let back := (fr + 65536 - x.seen) % 65536
  (c1.setPort p { x with seen := fr }).setFld (R.LNK_STAT p) F.LNK_STAT_CREDITS
    (min 32 (c1.lnk p F.LNK_STAT_CREDITS + back))

/-- A frame arrives at a port that is UP. -/
def Chip.receive (c : Chip) (p : Nat) (f : Frame) : Chip :=
  if !c.portUp p then c
  else if f.crc ≠ frameCrc f then c.badCrc p f.typ
  else if f.typ = 0 then c.takeLink p f
  else (c.takeAck p f).takeSeq p f

/-! ## Training (R396, R397) -/

/-- INIT has ended: the port is UP. A port that restarted its numbering, or whose partner did, begins at SEQ 0 with 32 credits;
otherwise every frame from the partner's RX_EXPECT on is sent again. -/
def Chip.comeUp (c : Chip) (p rxe seq : Nat) : Chip :=
  let x := c.port p
  let fresh := x.restarted || (rxe == 0xFFF && seq == 0xFFF)
  let rest := if fresh then [] else (ackRest rxe x.retry).map fun e => { e with due := true }
  let y := { x with retry := rest, downSince := none, restarted := false, upAt := c.now, lastAck := c.now,
                    lastReport := c.now, nak := none, blocks := 0, period := 0 }
  let y := if fresh then { y with freed := 0, reported := 0, freeAt := none, seen := 0 } else y
  let c1 := c.setPort p y
  let w := c1.reg (R.LNK_STAT p)
  let w := if fresh then
      fput (fput (fput w F.LNK_STAT_RX_EXPECT 0) F.LNK_STAT_TX_NEXT 0) F.LNK_STAT_CREDITS 32 else w
  ((c1.setReg (R.LNK_STAT p) w).setPortState p 4).raise (132 + 2 * p)

/-- R376, R396: two consecutive alignment blocks on four lanes whose skew is at most 16 block times. -/
def alignedOn (a b : List (Nat × Nat)) : Bool :=
  let spread := fun (l : List (Nat × Nat)) => l.all fun x => l.all fun y => decide (x.1 ≤ y.1 + 16)
  let n := (a.map Prod.snd).headD 0
  a.length == 4 && b.length == 4 && spread a && spread b && (a.all fun x => x.2 == n) && b.all fun x => x.2 == (n + 1) % 2 ^ 48

/-- One step of R396: the lanes lock one by one, and INIT begins with a LINK frame. A held port does not train. -/
def Chip.trainStep (c : Chip) (p : Nat) (t : TrainStep) : Chip :=
  let st := c.lnk p F.LNK_STAT_STATE
  if !c.powered || c.portHeld p || st == 4 then c
  else match t with
    | .signal => if st = 0 then c.setPortState p 1 else c
    | .trained => if st = 1 then c.setPortState p 2 else c
    | .laneLock k => if st = 2 then c.setFld (R.LNK_STAT p) F.LNK_STAT_LANE_LOCK (c.lnk p F.LNK_STAT_LANE_LOCK ||| 2 ^ k.val) else c
    | .aligned a b =>
      if st = 2 ∧ c.lnk p F.LNK_STAT_LANE_LOCK = 0xF ∧ alignedOn a b = true then (c.setPortState p 3).sendLink p false else c
    | .init rxe seq => if st = 3 then c.comeUp p rxe.toNat seq.toNat else c
    | .failed => if st = 2 ∨ st = 3 then c.setPortState p 1 else c

/-- R397: a port not UP again within 1 s discards its retry buffer and restarts its numbering. -/
def Chip.discardRetry (c : Chip) (p : Nat) : Chip :=
  let x := c.port p
  match x.downSince with
  | some t =>
    if c.portUp p || x.restarted || decide (c.now < t + 1000000000) then c
    else
      let c1 := (c.setPort p { x with retry := [], restarted := true }).lnkErr p F.LNK_ERR_LOST_BUF
      let w := c1.reg (R.LNK_STAT p)
      (c1.setReg (R.LNK_STAT p)
        (fput (fput (fput w F.LNK_STAT_TX_NEXT 0) F.LNK_STAT_RX_EXPECT 0) F.LNK_STAT_CREDITS 32)).raise (132 + 2 * p)
  | none => c

/-- R381: 2,048 block times without an advance of ACK: the oldest frame is sent again, or the port retrains after 8 sends. -/
def Chip.ackTimeout (c : Chip) (p : Nat) : Chip :=
  let x := c.port p
  match x.retry with
  | [] => c
  | e :: r =>
    if !c.portUp p || !c.blocksPassed x.lastAck 2048 then c
    else if 8 ≤ e.sends then c.retrain p false
    else c.setPort p { x with retry := { e with due := true } :: r, lastAck := c.now }

/-- R382: is a LINK frame due: 8 frames freed, 256 block times after a free, 100 µs, or an acknowledgement to repeat? -/
def Chip.linkDue (c : Chip) (p : Nat) : Bool :=
  let x := c.port p
  c.portUp p && (decide (8 ≤ (x.freed + 65536 - x.reported) % 65536)
    || (match x.freeAt with | some t => c.blocksPassed t 256 | none => false)
    || x.ackDue || decide (x.lastReport + 100000 ≤ c.now))

/-- R425: the NOTIFY frame of a chain, when one is due, the chain has an address and 10 µs have passed. -/
def Chip.notify (c : Chip) (ch : Nat) : Chip :=
  let b := c.mbx ch
  let soon := match b.lastNotify with | some t => decide (c.now < t + 10000) | none => false
  if !b.notify || !b.notifyEn || c.addr ch == 0x3F || soon then c
  else
    let rseq := if b.avail = 0 then b.rseq else bits b.nextHead.toNat 31 16
    let eseq := match b.evtQ with | w :: _ => bits w.toNat 47 32 | [] => b.eseq
    let h := rseq * 2 ^ 32 + eseq * 2 ^ 16 + b2n (!b.evtQ.isEmpty) * 2 + b2n (b.avail != 0)
    (c.setMbx ch { b with notify := false, lastNotify := some c.now }).queueOwn ch (newFrame 0xD 0 0x3F 0 (wNat h) []) true

/-- R400: a module reset: both addresses return to 0x3F; requests not yet applied and the module's own frames not yet sent are
discarded; ports, numbering and relayed frames are kept. -/
def Chip.resetLinks (c : Chip) : Chip :=
  let c1 := (c.setAddr 0 0x3F).setAddr 1 0x3F
  [0, 1, 2, 3].foldl (fun d p =>
    let x := d.port p
    let keep := x.taken.filter fun f => c.routeAct p f == .relay || c.routeAct p f == .unassign
    d.setPort p { x.freeMore (x.taken.length - keep.length) c.now with
      waiting := x.waiting.filter fun o => !o.own,
      taken := keep }) c1

/-- R376: the alignment blocks of a port once 16,384 block times have passed since the last ones. -/
def Chip.alignmentDue (c : Chip) (p : Nat) : Chip :=
  let x := c.port p
  let t := blockTimes c.now
  if !c.powered || decide (t < x.alignAt + 16384) then c
  else
    (c.setPort p { x with align := (x.align + 1) % 2 ^ 48, alignAt := t - (t - x.alignAt) % 16384 }).sendBlocks p
      ((List.range 4).map fun k => alignBlock k x.align)

/-! ## Meanings -/

/-- FRAME_RECEIVE (R378-R382). -/
def execFrameReceive (p : Fin 4) (f : Frame) (s : State) : Out := s.goChip (s.chip.receive p.val f)

/-- LINK (R382): a LINK frame is consumed by its hop. -/
def execLink (p : Fin 4) (f : Frame) (s : State) : Out := s.goChip (s.chip.receive p.val { f with typ := 0 })

/-- LINK_FRAME_SEND (R382). -/
def execLinkFrameSend (p : Fin 4) (s : State) : Out :=
  s.goChip (if s.chip.linkDue p.val then s.chip.sendLink p.val false else s.chip)

/-- RETRANSMIT_TIMEOUT (R381). -/
def execRetransmitTimeout (p : Fin 4) (s : State) : Out := s.goChip (s.chip.ackTimeout p.val)

/-- FRAME_TRANSMIT (R381-R383). -/
def execFrameTransmit (p : Fin 4) (s : State) : Out := s.goChip (s.chip.transmit p.val)

/-- ALIGNMENT_BLOCK (R376): every 16,384 block times one alignment block leaves on each lane, and the count advances. -/
def execAlignmentBlock (p : Fin 4) (s : State) : Out := s.goChip (s.chip.alignmentDue p.val)

/-- FRAME_RELAY (R385, R386): an accepted frame for another module or for the host goes to the other port. -/
def execFrameRelay (p : Fin 4) (f : Frame) (s : State) : Out :=
  let act := s.chip.routeAct p.val f
  s.goChip (if act = .relay ∨ act = .noroute then s.chip.takeFrame p.val (fun _ => true) f else s.chip)

/-- RD (R391). -/
def execRd (ch : Fin 2) (f : Frame) (s : State) : Out := s.goChip (s.chip.takeFrame (2 * ch.val) (· == 1) { f with typ := 1 })

/-- WR (R391). -/
def execWr (ch : Fin 2) (f : Frame) (s : State) : Out := s.goChip (s.chip.takeFrame (2 * ch.val) (· == 2) { f with typ := 2 })

/-- RW (R394). -/
def execRw (ch : Fin 2) (f : Frame) (s : State) : Out := s.goChip (s.chip.takeFrame (2 * ch.val) (· == 3) { f with typ := 3 })

/-- RR (R394). -/
def execRr (ch : Fin 2) (f : Frame) (s : State) : Out := s.goChip (s.chip.takeFrame (2 * ch.val) (· == 4) { f with typ := 4 })

/-- SYNC (R393). -/
def execSync (ch : Fin 2) (f : Frame) (s : State) : Out := s.goChip (s.chip.takeFrame (2 * ch.val) (· == 7) { f with typ := 7 })

/-- ENUM (R388). -/
def execEnum (ch : Fin 2) (f : Frame) (s : State) : Out := s.goChip (s.chip.takeFrame (2 * ch.val) (· == 9) { f with typ := 9 })

/-- UNASSIGN (R390). -/
def execUnassign (ch : Fin 2) (f : Frame) (s : State) : Out :=
  s.goChip (s.chip.takeFrame (2 * ch.val) (· == 0xB) { f with typ := 0xB })

/-- NOTIFY_SEND (R425). -/
def execNotifySend (ch : Fin 2) (s : State) : Out := s.goChip (s.chip.notify ch.val)

/-- PORT_TRAINING (R396). -/
def execPortTraining (p : Fin 4) (t : TrainStep) (s : State) : Out := s.goChip (s.chip.trainStep p.val t)

/-- PORT_RETRAIN (R397, R398): a lock loss, 8 sends, 1 ms of silence or RETRAIN; a held port does not train. -/
def execPortRetrain (p : Fin 4) (lock : Bool) (s : State) : Out :=
  s.goChip (if s.chip.portHeld p.val then s.chip else s.chip.retrain p.val lock)

/-- RETRY_BUFFER_DISCARD (R397). -/
def execRetryBufferDiscard (p : Fin 4) (s : State) : Out := s.goChip (s.chip.discardRetry p.val)

/-- LNK_CTRL_DOWN_EN_WRITE (R401): DOWN_EN alone is written. -/
def execLnkCtrlDownEnWrite (p : Fin 4) (en : Bool) (s : State) : Out :=
  s.goChip (s.chip.writeLnkCtrl p.val
    (fput (fput (s.chip.reg (R.LNK_CTRL p.val)) F.LNK_CTRL_DOWN_EN (b2n en)) F.LNK_CTRL_RETRAIN 0))

end Sys2Proof.Machine
end

