-- ==== Sys2Proof/Machine/CoreExc.lean ====
section
/-! DEFINITION. Machine/CoreExc.lean: taking an exception (R265), escalating (R281, R282) and returning (R267), once for
every instruction and interrupt; contexts and their background spill (R278-R280). -/

namespace Sys2Proof.Machine

/-- What a core's step leaves: the core, the stored words, what the module has to record. -/
structure CoreRes where
  core : Core
  mem : Memory
  effs : List Eff := []
  deriving DecidableEq, Repr

/-- STATE of a frame (Table 10.3). -/
def frameState (x : Core) (cause : Nat) (imp : Bool) (restart : Option Nat) : Nat :=
  cause * 2 ^ 56 + b2n imp * 2 ^ 55 + x.key * 2 ^ 48 + b2n x.sup * 2 ^ 47
    + (match restart with | some k => 2 ^ 41 + k * 2 ^ 37 | none => 0) + flagsNat x.bank.flags

/-- Signature records of what an escalation loads (R295). -/
def escNote (x : Core) : Core :=
  ((((x.noteSp 0x013 (erecWord x.erec)).noteSp 0x018 x.escPc).noteSp 0x019 x.escState.toNat).noteSp 0x01A
    x.escAddr.toNat).noteSp 0x01B x.escG15.toNat

/-- Close the CRIT window, with its record when one was open. -/
def Core.closeCrit (x : Core) : Core :=
  if x.critEnd.isSome then ({ x with critEnd := none } : Core).noteSp 0x014 0 else x

/-- R281, R282: escalate with a reason. `cause` is 0 for an RFE, `st` supplies STATE bits [53:16] and FLAGS, `f` is the
frame address. The manual says that escalation overwrites G14 of the exception bank and not with what: a free value. -/
def escalate (e : Env) (x : Core) (m : Memory) (effs : List Eff) (reason cause : Nat) (imp : Bool) (st f : Nat) : CoreRes :=
  if x.escActive || x.escbase == 0 then ⟨{ x with run := .stopped }, m, effs⟩
  else
    let y := { x with
      escPc := x.pc,
      escState := wNat (cause * 2 ^ 56 + b2n imp * 2 ^ 55 + 2 ^ 54 + bits st 53 16 * 2 ^ 16 + reason * 2 ^ 8
        + bits st 3 0),
      escAddr := wNat f,
      escG15 := x.g 15,
      erec := [⟨true, 0xF⟩], exc := true, sup := true, critEnd := none, escActive := true, pc := x.escbase,
      run := .executing, stm := none }
    let z := (y.setGOf 0xF 14 (Config.freeWord (e.chip.freeCtr + 14))).setGOf 0xF 15 0x0000700000000000#64
    ⟨escNote (if x.critEnd.isSome then z.noteSp 0x014 0 else z), m, effs⟩

/-- Store one 64-bit frame word at once with the core's privilege: the memory, the status, effects (R265 step 5). -/
def frameStore (e : Env) (x : Core) (m : Memory) (a data : Nat) : Memory × Resp × List Eff :=
  match e.denOff a with
  | some off => (denStore e m off 8 data, .okay, [])
  | none =>
    match e.chip.route (e.who x.sup) a true with
    | .word key fold loc =>
      let r := writeWord e.chip m key fold loc data 255
      (if e.lead then r.1 else m, r.2.1, [.request ⟨a, 8, true, data⟩])
    | .register r => (m, .okay, [.request ⟨a, 8, true, data⟩, .regStore (e.who x.sup) r (wNat data)])
    | .deflt die => (m, .default, [.request ⟨a, 8, true, data⟩, .defErr die (e.who x.sup) true a])
    | .abort => (m, .abort, [.request ⟨a, 8, true, data⟩, .aborted e.job])

/-- A store updates the data-cache line that holds it (R243). -/
def cacheStore (x : Core) (a n data : Nat) : Core :=
  match mget? x.dcache (a / 64 * 64) with
  | some line =>
    let l := line.take (a % 64) ++ bytesLE n data ++ line.drop (a % 64 + n)
    { x with dcache := mset x.dcache (a / 64 * 64) l }
  | none => x

/-- Store the frame words from offset `k` on; stops at the first response other than OKAY. -/
def frameStores (e : Env) (x : Core) (m : Memory) (f : Nat) : List Word → Nat → Core × Memory × Bool × List Eff
  | [], _ => (x, m, true, [])
  | w :: r, k =>
    let st := frameStore e x m (f + 8 * k) w.toNat
    if st.2.1 ≠ .okay then (x, st.1, false, st.2.2)
    else
      let rest := frameStores e ((cacheStore x (f + 8 * k) 8 w.toNat).noteStore (f + 8 * k) 8 w.toNat) st.1 f r (k + 1)
      (rest.1, rest.2.1, rest.2.2.1, st.2.2 ++ rest.2.2.2)

/-- Must a core still wait, with its window closed, until every store it has retired has been decided, released and
acknowledged? -/
def Core.mustDrain (e : Env) (x : Core) : Bool := !(x.drained && (x.winFresh || !e.safe))

/-- Close the open window, when it holds something and no closed one waits, and stall. -/
def Core.drain (x : Core) : Core := Core.stall (if x.closed.isNone && !x.winFresh then x.closeWin x.pc false else x)

/-- R296: an open window in which the twelve stores of a frame have no room closes before the entry; none is closed then, since the core's
stores have been acknowledged. -/
def Core.entryRoom (x : Core) : Core := if x.win.stores + 12 ≤ 32 then x else x.closeWin x.pc false

/-- R296: the window closes after its 128th word. -/
def Core.close128 (x : Core) : Core := if 128 ≤ x.win.words then x.closeWin x.pc true else x

/-- R265 steps 2 to 7 in a window with room for the frame. `pcF` is the frame's PC, `restart` the register of an STM or LDM to resume at. -/
def makeEntry (e : Env) (x : Core) (m : Memory) (effs : List Eff) (cause : Nat) (imp : Bool) (pcF eaddr : Nat)
    (restart : Option Nat) : CoreRes :=
  if x.erec.length = 8 then
    escalate e x m effs 0x22 cause imp (frameState x cause imp restart) ((x.g 15).toNat + 2 ^ 64 - 0x60)
  else
    let g15 := (x.g 15).toNat
    let f := (g15 + 2 ^ 64 - 0x60) % 2 ^ 64
    let st := frameState x cause imp restart
    let words : List Word :=
      [wNat pcF, wNat st, wNat eaddr, wNat g15] ++ x.bank.g.toList.take 8
    let bad := g15 % 8 != 0 || !addrOk f
      || (List.range 12).any fun k => (preExc e x (f + 8 * k) 8 true).isSome
    if bad then escalate e x m effs 0x20 cause imp st f
    else
      let r := frameStores e x m f words 0
      if !r.2.2.1 then escalate e r.1 r.2.1 (effs ++ r.2.2.2) 0x20 cause imp st f
      else
        let y := r.1.setGOf r.1.key 15 (wNat f)
        let y := { y with erec := y.erec ++ [(⟨x.sup, x.key⟩ : ErecEntry)], cause := cause, causeImp := imp, eaddr := wNat eaddr }
        let y := (((y.noteSp 0x011 (cause + b2n imp * 2 ^ 8)).noteSp 0x012 eaddr).noteSp 0x013 (erecWord y.erec)).closeCrit
        let y := { y with exc := true, sup := true, critEnd := none, pc := x.evbase,
                          run := .executing, stm := none }
        ⟨y.setGOf 0xF 14 (wNat f), r.2.1, effs ++ r.2.2.2⟩

/-- R265 steps 2 to 7: the entry of a core whose stores have been acknowledged. -/
def enterExc (e : Env) (x : Core) (m : Memory) (effs : List Eff) (cause : Nat) (imp : Bool) (pcF eaddr : Nat)
    (restart : Option Nat) : CoreRes :=
  let r := makeEntry e x.entryRoom m effs cause imp pcF eaddr restart
  { r with core := r.core.close128 }

/-- R265: take an exception. The core first waits, with its window closed, until every store it has retired has been
acknowledged (step 1 and the acknowledgement wait of step 5); it then makes the entry in one step. -/
def takeExc (e : Env) (x : Core) (m : Memory) (effs : List Eff) (cause : Nat) (imp : Bool) (pcF eaddr : Nat)
    (restart : Option Nat) : CoreRes :=
  if x.mustDrain e then ⟨x.drain, m, []⟩ else enterExc e x m effs cause imp pcF eaddr restart

/-- A precise exception of the word that executes: the frame's PC is the word (Table 10.1). -/
def trapAt (e : Env) (x : Core) (m : Memory) (ex : Exc) (effs : List Eff) : CoreRes :=
  takeExc e x m effs ex.cause false x.pc ex.eaddr none

/-- The illegal-instruction exception (R236): EADDR 0. -/
def illegal (e : Env) (x : Core) (m : Memory) : CoreRes := trapAt e x m ⟨0x01, 0⟩ []

/-- The privilege exception of an instruction (Table 10.1): EADDR 0. -/
def privilege (e : Env) (x : Core) (m : Memory) : CoreRes := trapAt e x m ⟨0x03, 0⟩ []

/-! ## Contexts (R278-R280) -/

/-- Numbered contexts of the core: 8 on Fox, 4 on Badger. -/
def Env.nctx (e : Env) : Nat := if e.fox then 8 else 4

/-- Context banks of the core (Table 9.1). -/
def Env.nbanks (e : Env) : Nat := if e.fox then 4 else 2

/-- R279: when live contexts outnumber the banks and no bank is free, the least recently current resident context other
than the current one is spilled. `resident` is kept most recently current first. -/
def startSpill (e : Env) (x : Core) : Core :=
  if x.spill.isNone && decide (e.nbanks ≤ x.resident.length) && decide (e.nbanks < x.live.length) then
    match (x.resident.filter fun k => k != x.cur).getLast? with
    | some k => { x with spill := some ⟨k, false⟩ }
    | none => x
  else x

/-- Make a resident context the most recently current one (R280). -/
def touchCtx (x : Core) (k : Nat) : Core :=
  { x with cur := k, exc := false, resident := k :: x.resident.filter (· != k) }

/-- The records of a context whose registers all change (R295): the general and bank registers and FLAGS, then STE and RSP. -/
def noteCtx (x : Core) (k : Nat) (b : Bank) : Core :=
  let x1 := (List.range 25).foldl (fun x i => x.noteReg k i 0) x
  (x1.noteReg k 0x101 0).noteReg k 0x102 b.rsp

/-- Is a spill or a load of context `k` in progress (R280: no instruction reaches it then)? -/
def Core.moving (x : Core) (k : Nat) : Bool := match x.spill with | some s => s.ctx == k | none => false

/-! ### Hardware-only areas (R274, R276, R279) -/

/-- Den offset of the shadow-stack spill area of a context (Table 10.4). -/
def Env.shadowArea (e : Env) (k : Nat) : Nat := (if e.fox then 0xC000 else 0xA000) + k * 0x800

/-- Den offset of the context spill area of a context (Table 10.4). -/
def Env.ctxArea (e : Env) (k : Nat) : Nat := (if e.fox then 0x10000 else 0xC000) + k * 0x200

/-- What an image of a context holds (R278): the registers, FLAGS, STE, RSP and the hardware part of the shadow stack. -/
def Bank.contents (b : Bank) : List Nat :=
  b.g.toList.map BitVec.toNat ++ b.b.toList.map BitVec.toNat ++ [flagsNat b.flags, b.ste, b.rsp, b.inHw] ++ b.shadow.take b.inHw

/-- Store the 64 words of a context's image (R279). -/
def writeImage (e : Env) (m : Memory) (k : Nat) (b : Bank) : Memory :=
  (List.range 64).foldl (fun m i => denStore e m (e.ctxArea k + 8 * i) 8 (Config.hwArea b.contents i).toNat) m

/-- The effects of reading words of the own Den, and whether each read well what hardware had stored there. -/
def readBack (e : Env) (x : Core) (m : Memory) (off : Nat) (l : List Word) : Bool × List Eff :=
  let rs := (l.zip (List.range l.length)).map fun w => (w.1, denWord e m (off + 8 * w.2))
  (rs.all fun r => r.2.resp == .okay && r.2.data == r.1.toNat, (rs.map fun r => e.found x.sup r.2.hit).flatten)

/-- A bank whose image has been changed under it: every register holds an open value, since the layout of the image is open. -/
def freeBank (n : Nat) (b : Bank) : Bank :=
  { b with
    g := Vector.ofFn fun i => Config.freeWord (n + i.val)
    b := Vector.ofFn fun i => (Config.freeWord (n + 16 + i.val)).setWidth 32
    flags := flagsOf (Config.freeNat (n + 24) % 16)
    ste := Config.freeNat (n + 25) % 128
    rsp := Config.freeNat (n + 26) % 2 ^ 64
    shadow := (List.range b.inHw).map (fun i => (Config.freeWord (n + 32 + i)).toNat % 2 ^ 48) ++ b.shadow.drop b.inHw }

/-- The word that holds the shadow entry `a` spilled when `j` older ones lay in the area. DESIGN CHOICE (log 68): entries lie in ascending order
from the area's first word; the manual does not give their places. -/
def shadowWord (a j : Nat) : Word := Config.hwArea [a] j

/-- R276: a CALL that finds 32 entries in hardware writes the oldest of them to the spill area first. -/
def spillShadow (e : Env) (x : Core) (m : Memory) : Core × Memory :=
  let b := x.bankOf x.cur
  if b.inHw < 32 then (x, m)
  else
    let j := b.shadow.length - 32
    (x.setBank x.cur { b with inHw := 31 }, denStore e m (e.shadowArea x.cur + 8 * j) 8 (shadowWord (b.shadow.getD 31 0) j).toNat)

/-- R276: a RET that has emptied the hardware part reads the next spilled entry back; an entry that no longer reads as it was stored is
open. -/
def unspillShadow (e : Env) (x : Core) (m : Memory) : Core × List Eff :=
  let b := x.bankOf x.cur
  match b.inHw, b.shadow with
  | 0, a :: r =>
    let q := readBack e x m (e.shadowArea x.cur + 8 * r.length) [shadowWord a r.length]
    (x.setBank x.cur { b with inHw := 1, shadow := (if q.1 then a else (Config.freeWord e.chip.freeCtr).toNat % 2 ^ 48) :: r }, q.2)
  | _, _ => (x, [])

/-- R278: create a context: all registers 0, RSP at top, empty shadow stack. -/
def createCtx (e : Env) (x : Core) (k : Nat) : Core :=
  if k < e.nctx then
    let live := if x.live.contains k then x.live else x.live ++ [k]
    let res := if x.resident.contains k then x.resident
      else if x.resident.length < e.nbanks then x.resident ++ [k] else x.resident
    startSpill e { noteCtx (x.setBank k (freshBank k)) k (freshBank k) with live := live, resident := res }
  else x

/-- R278: destroy a context that is neither current nor named in EREC; any other has no effect. -/
def destroyCtx (e : Env) (x : Core) (k : Nat) : Core :=
  if k < e.nctx ∧ k ≠ x.cur ∧ (x.erec.all fun r => r.ctx != k) = true then
    { x with live := x.live.filter (· != k), resident := x.resident.filter (· != k),
             banks := mdel x.banks k }
  else x

/-- Make context `k` current under section 10.6: at once when resident, through a load when spilled (R280). The
exception bank (0xF) needs no bank. -/
def enterCtx (e : Env) (x : Core) (k : Nat) : Core :=
  if k = 0xF then { x with exc := true }
  else if x.resident.contains k && x.spill != some ⟨k, false⟩ then startSpill e (touchCtx x k)
  else
    let sp := if x.spill.isSome then x.spill else some ⟨k, true⟩
    { x with pendCur := some k, spill := sp, run := .stalled }

/-! ## Return (R267) -/

/-- What reading a frame left: the words read, in order, the data cache, the effects, and whether every read went well. -/
structure FrameRead where
  words : List Word
  cache : List (Nat × List Byte)
  effs : List Eff
  ok : Bool
  deriving DecidableEq, Repr

/-- The words of a frame read with the core's privilege, up to the first read that is refused or not answered OKAY
(R267 step 2). The lines they touch come into the data cache as for every load. -/
def frameLoad (e : Env) (x : Core) (m : Memory) (f : Nat) : List Nat → FrameRead
  | [] => ⟨[], x.dcache, [], true⟩
  | k :: r =>
    match loadBytes e x m (f + 8 * k) 8 true with
    | .value v cache ef =>
      let rest := frameLoad e { x with dcache := cache } m f r
      { rest with words := wNat v :: rest.words, effs := ef ++ rest.effs }
    | .trap _ ef => ⟨[], x.dcache, ef, false⟩
    | .wait => ⟨[], x.dcache, [], false⟩

/-- Write G0-G7 of a context from a frame. -/
def restoreG (x : Core) (k : Nat) : List Word → Nat → Core
  | [], _ => x
  | w :: r, j => restoreG (x.setGOf k j w) k r (j + 1)

/-- R267: RFE. The core first waits, its window closed, until its stores are decided and acknowledged. STATE of a frame whose
STATE word could not be read is free. -/
def doRfe (e : Env) (x : Core) (m : Memory) : CoreRes :=
  if !x.sup then privilege e x m
  else if x.mustDrain e || !x.winFresh then ⟨x.drain, m, []⟩
  else
    let f := (x.g 14).toNat
    let rd : FrameRead := if addrOk (f + 0x58) then frameLoad e x m f (List.range 12) else ⟨[], x.dcache, [], false⟩
    let st := match rd.words with
      | _ :: w :: _ => w.toNat
      | _ => (Config.freeWord e.chip.freeCtr).toNat
    let x := { x with dcache := rd.cache }
    if !rd.ok then escalate e x m rd.effs 0x20 0 (bit st 55) st f
    else
      let ws := rd.words
      let ctx := bits st 51 48
      let bad := match x.erec.getLast? with
        | none => true
        | some t =>
          (bit st 47 && !t.sup) || (ctx != 0xF && !x.live.contains ctx) || (ctx == 0xF && t.ctx != 0xF)
      if bad then escalate e x m rd.effs 0x21 0 (bit st 55) st f
      else
        let y := { x with erec := x.erec.dropLast, escActive := false }
        let y := { y with lastPc := x.pc, retired := x.retired + 1, win := { y.win with words := y.win.words + 1 } }
        let y := restoreG y ctx (ws.drop 4) 0
        let y := y.setGOf ctx 15 (ws.getD 3 0#64)
        let y := (y.setBank ctx { y.bankOf ctx with flags := flagsOf st }).noteReg ctx 0x18 (bits st 3 0)
        let y := y.noteSp 0x013 (erecWord y.erec)
        let y := if x.escActive then y.noteSp 0x019 (x.escState &&& ~~~(wNat (2 ^ 54))).toNat else y
        let y := { y with sup := bit st 47, pc := (ws.getD 0 0#64).toNat % 2 ^ 48, run := .executing,
                          stm := if bit st 41 then some (bits st 40 37) else none }
        ⟨enterCtx e y ctx, m, rd.effs⟩

end Sys2Proof.Machine
end

