-- ==== Sys2Proof/Machine/Fp.lean ====
section
/-! DEFINITION. Machine/Fp.lean: the element types of Table 3.4 and the floating-point arithmetic of chapter 5 (R122,
R126-R139): one rounding of an exact value, with the sticky flags of R143 in the bit order of Table 5.5. -/

namespace Sys2Proof.Machine

/-! ## Types (Table 3.4) -/

/-- A floating-point element type: FP64, FP32, FP16. -/
def isFp (t : Nat) : Bool := decide (t < 3)

/-- An integer element type. -/
def isInt (t : Nat) : Bool := decide (4 ≤ t) && decide (t ≤ 11)

/-- A listed element type. -/
def okType (t : Nat) : Bool := isFp t || isInt t

/-- A signed integer type. -/
def isSigned (t : Nat) : Bool := t == 4 || t == 6 || t == 8 || t == 10

/-- Size of a type in bytes. -/
def tySize (t : Nat) : Nat :=
  match t with
  | 0 | 4 | 5 => 8
  | 1 | 6 | 7 => 4
  | 2 | 8 | 9 => 2
  | _ => 1

/-- Width of a type in bits. -/
def tyWidth (t : Nat) : Nat := 8 * tySize t

/-- Fraction bits of a floating-point type (Table 5.1). -/
def fracBits (t : Nat) : Nat := if t = 0 then 52 else if t = 1 then 23 else 10

/-- Exponent bits of a floating-point type. -/
def expBits (t : Nat) : Nat := if t = 0 then 11 else if t = 1 then 8 else 5

/-- Largest biased exponent: infinities and NaNs. -/
def expMax (t : Nat) : Nat := 2 ^ expBits t - 1

/-- Exponent bias. -/
def expBias (t : Nat) : Nat := 2 ^ (expBits t - 1) - 1

/-! ## Flags (Table 5.5) -/

/-- Invalid operation. -/
def fIV : Nat := 1
/-- Division by zero. -/
def fDZ : Nat := 2
/-- Overflow. -/
def fOF : Nat := 4
/-- Underflow. -/
def fUF : Nat := 8
/-- Inexact. -/
def fIX : Nat := 16
/-- Integer overflow. -/
def fV : Nat := 32
/-- Integer division by zero. -/
def fIDZ : Nat := 64

/-- OR of two flag words. -/
def flOr (a b : Nat) : Nat := Nat.lor a b

/-! ## Encodings -/

/-- Sign bit. -/
def fpSign (t x : Nat) : Bool := bit x (tyWidth t - 1)

/-- Biased exponent field. -/
def fpExp (t x : Nat) : Nat := x / 2 ^ fracBits t % 2 ^ expBits t

/-- Fraction field. -/
def fpFrac (t x : Nat) : Nat := x % 2 ^ fracBits t

/-- A NaN. -/
def fpNan (t x : Nat) : Bool := fpExp t x == expMax t && fpFrac t x != 0

/-- A signalling NaN: the quiet bit is 0. -/
def fpSnan (t x : Nat) : Bool := fpNan t x && !bit x (fracBits t - 1)

/-- An infinity. -/
def fpInf (t x : Nat) : Bool := fpExp t x == expMax t && fpFrac t x == 0

/-- A zero of either sign. -/
def fpZero (t x : Nat) : Bool := fpExp t x == 0 && fpFrac t x == 0

/-- A subnormal. -/
def fpSub (t x : Nat) : Bool := fpExp t x == 0 && fpFrac t x != 0

/-- The sign bit as a number. -/
def fpSignBit (t : Nat) (neg : Bool) : Nat := if neg then 2 ^ (tyWidth t - 1) else 0

/-- A zero of a sign. -/
def mkZero (t : Nat) (neg : Bool) : Nat := fpSignBit t neg

/-- An infinity of a sign. -/
def mkInf (t : Nat) (neg : Bool) : Nat := fpSignBit t neg + expMax t * 2 ^ fracBits t

/-- The largest finite value of a sign. -/
def mkMax (t : Nat) (neg : Bool) : Nat := fpSignBit t neg + (expMax t * 2 ^ fracBits t - 1)

/-- The default NaN (Table 5.1). -/
def dNan (t : Nat) : Nat := expMax t * 2 ^ fracBits t + 2 ^ (fracBits t - 1)

/-- A NaN with its quiet bit set (R132). -/
def quieten (t x : Nat) : Nat := Nat.lor x (2 ^ (fracBits t - 1))

/-- The sign changed. -/
def fpNegate (t x : Nat) : Nat := nxor x (2 ^ (tyWidth t - 1))

/-- Magnitude of a finite value as an integer times a power of two: significand and exponent. -/
def fpMag (t x : Nat) : Nat × Int :=
  let e := fpExp t x
  if e = 0 then (fpFrac t x, 1 - (expBias t : Int) - fracBits t)
  else (2 ^ fracBits t + fpFrac t x, (e : Int) - expBias t - fracBits t)

/-- R130: an operand as a node reads it: with FTZ a subnormal reads as a zero of its sign. -/
def readFp (t : Nat) (ftz : Bool) (x : Nat) : Nat := if ftz && fpSub t x then mkZero t (fpSign t x) else x

/-! ## Rounding (R126, R127, R129, R130) -/

/-- The integer that m * 2^e rounds to in units of 2^u, and whether it was exact. Modes: 0 RNE, 1 RTZ, 2 RUP, 3 RDN. -/
def roundAt (rm : Nat) (neg : Bool) (m : Nat) (e u : Int) : Nat × Bool :=
  if u ≤ e then (m * 2 ^ (e - u).toNat, true)
  else
    let s := (u - e).toNat
    let q := m / 2 ^ s
    let r := m % 2 ^ s
    let up := match rm with
      | 0 => decide (2 ^ s < 2 * r) || (2 * r == 2 ^ s && q % 2 == 1)
      | 1 => false
      | 2 => !neg && r != 0
      | _ => neg && r != 0
    (if up then q + 1 else q, r == 0)

/-- R127, Table 5.3: the result of an overflow. -/
def overflowTo (t rm : Nat) (neg : Bool) : Nat :=
  match rm with
  | 0 => mkInf t neg
  | 1 => mkMax t neg
  | 2 => if neg then mkMax t neg else mkInf t neg
  | _ => if neg then mkInf t neg else mkMax t neg

/-- Round the exact value ±m * 2^e (m not 0) to a type: result and flags. -/
def roundFp (t rm : Nat) (ftz neg : Bool) (m : Nat) (e : Int) : Nat × Nat :=
  let f := fracBits t
  let top := (Nat.log2 m : Int) + e
  let emin : Int := 1 - (expBias t : Int)
  let r := roundAt rm neg m e (top - f)
  let top2 := if r.1 = 2 ^ (f + 1) then top + 1 else top
  if top2 < emin then
    if ftz then (mkZero t neg, fUF + fIX)
    else
      let q := roundAt rm neg m e (emin - f)
      (fpSignBit t neg + q.1, if q.2 then 0 else fUF + fIX)
  else if (expBias t : Int) < top2 then (overflowTo t rm neg, fOF + fIX)
  else
    let frac := if r.1 = 2 ^ (f + 1) then 0 else r.1 - 2 ^ f
    (fpSignBit t neg + (top2 + expBias t).toNat * 2 ^ f + frac, if r.2 then 0 else fIX)

/-! ## NaN operands (R131, R132) -/

/-- The NaN result of an operation whose operands, in order, hold a NaN; none when they hold none. -/
def nanOf (t : Nat) (l : List Nat) : Option (Nat × Nat) :=
  match l.find? (fpNan t) with
  | none => none
  | some x => some (quieten t x, if l.any (fpSnan t) then fIV else 0)

/-! ## Operations on operands as read -/

/-- The exact sum of two signed values on a common exponent: sign, magnitude; zero keeps the given sign. -/
def addExact (s1 : Bool) (m1 : Nat) (s2 : Bool) (m2 : Nat) : Bool × Nat :=
  if s1 = s2 then (s1, m1 + m2)
  else if m2 ≤ m1 then (s1, m1 - m2) else (s2, m2 - m1)

/-- Sum of two finite values given as sign, significand and exponent (R126-R130). -/
def sumFinite (t rm : Nat) (ftz : Bool) (s1 : Bool) (m1 : Nat) (e1 : Int) (s2 : Bool) (m2 : Nat) (e2 : Int) : Nat × Nat :=
  if m1 = 0 ∧ m2 = 0 then (mkZero t (if s1 = s2 then s1 else rm == 3), 0)
  else
    let e := if m1 = 0 then e2 else if m2 = 0 then e1 else min e1 e2
    let a := if m1 = 0 then 0 else m1 * 2 ^ (e1 - e).toNat
    let b := if m2 = 0 then 0 else m2 * 2 ^ (e2 - e).toNat
    let r := addExact s1 a s2 b
    if r.2 = 0 then (mkZero t (rm == 3), 0) else roundFp t rm ftz r.1 r.2 e

/-- Addition of two operands that are no NaNs. -/
def addNum (t rm : Nat) (ftz : Bool) (a b : Nat) : Nat × Nat :=
  if fpInf t a then
    if fpInf t b && fpSign t a != fpSign t b then (dNan t, fIV) else (a, 0)
  else if fpInf t b then (b, 0)
  else
    let x := fpMag t a
    let y := fpMag t b
    sumFinite t rm ftz (fpSign t a) x.1 x.2 (fpSign t b) y.1 y.2

/-- S.FADD. -/
def fpAdd (t rm : Nat) (ftz : Bool) (a b : Nat) : Nat × Nat :=
  match nanOf t [a, b] with
  | some r => r
  | none => addNum t rm ftz a b

/-- S.FSUB: a + (-b) unless an operand is a NaN. -/
def fpSubtract (t rm : Nat) (ftz : Bool) (a b : Nat) : Nat × Nat :=
  match nanOf t [a, b] with
  | some r => r
  | none => addNum t rm ftz a (fpNegate t b)

/-- S.FMUL. -/
def fpMul (t rm : Nat) (ftz : Bool) (a b : Nat) : Nat × Nat :=
  match nanOf t [a, b] with
  | some r => r
  | none =>
    let s := fpSign t a != fpSign t b
    if (fpInf t a && fpZero t b) || (fpZero t a && fpInf t b) then (dNan t, fIV)
    else if fpInf t a || fpInf t b then (mkInf t s, 0)
    else if fpZero t a || fpZero t b then (mkZero t s, 0)
    else
      let x := fpMag t a
      let y := fpMag t b
      roundFp t rm ftz s (x.1 * y.1) (x.2 + y.2)

/-- S.FMA and its variants: the product negated by `np`, the addend by `na` (R133, R136). -/
def fpFma (t rm : Nat) (ftz np na : Bool) (a b d : Nat) : Nat × Nat :=
  match nanOf t [a, b, d] with
  | some r => r
  | none =>
    let s := (fpSign t a != fpSign t b) != np
    let c := if na then fpNegate t d else d
    if (fpInf t a && fpZero t b) || (fpZero t a && fpInf t b) then (dNan t, fIV)
    else if fpInf t a || fpInf t b then
      if fpInf t c && fpSign t c != s then (dNan t, fIV) else (mkInf t s, 0)
    else if fpInf t c then (c, 0)
    else
      let x := fpMag t a
      let y := fpMag t b
      let z := fpMag t c
      sumFinite t rm ftz s (x.1 * y.1) (x.2 + y.2) (fpSign t c) z.1 z.2

/-- S.FDIV: the quotient to more bits than any type holds, with a sticky last bit. -/
def fpDiv (t rm : Nat) (ftz : Bool) (a b : Nat) : Nat × Nat :=
  match nanOf t [a, b] with
  | some r => r
  | none =>
    let s := fpSign t a != fpSign t b
    if (fpInf t a && fpInf t b) || (fpZero t a && fpZero t b) then (dNan t, fIV)
    else if fpInf t a then (mkInf t s, 0)
    else if fpInf t b || fpZero t a then (mkZero t s, 0)
    else if fpZero t b then (mkInf t s, fDZ)
    else
      let x := fpMag t a
      let y := fpMag t b
      let n := x.1 * 2 ^ 128
      let q := n / y.1 * 2 + (if n % y.1 = 0 then 0 else 1)
      roundFp t rm ftz s q (x.2 - y.2 - 129)

/-- Integer square root by bits, from bit `k` down. -/
def isqrtGo : Nat → Nat → Nat → Nat
  | 0, _, r => r
  | k + 1, n, r =>
    let c := r + 2 ^ k
    isqrtGo k n (if c * c ≤ n then c else r)

/-- S.FSQRT. -/
def fpSqrt (t rm : Nat) (ftz : Bool) (a : Nat) : Nat × Nat :=
  match nanOf t [a] with
  | some r => r
  | none =>
    if fpZero t a then (a, 0)
    else if fpSign t a then (dNan t, fIV)
    else if fpInf t a then (a, 0)
    else
      let x := fpMag t a
      let odd := x.2 % 2 == 1
      let m := (if odd then x.1 * 2 else x.1) * 2 ^ 130
      let e := (if odd then x.2 - 1 else x.2) - 130
      let r := isqrtGo 96 m 0
      let q := r * 2 + (if r * r = m then 0 else 1)
      roundFp t rm ftz false q (e / 2 - 1)

/-- Order of two numbers that are no NaNs, with -0 equal to +0: is a below b? -/
def fpLt (t a b : Nat) : Bool :=
  let key := fun (x : Nat) =>
    let m : Int := (x % 2 ^ (tyWidth t - 1) : Nat)
    if fpSign t x then -m else m
  decide (key a < key b)

/-- Equality of two numbers that are no NaNs. -/
def fpEq (t a b : Nat) : Bool := !fpLt t a b && !fpLt t b a

/-- S.FMIN (`mx` false) and S.FMAX (R137): -0 lies below +0. DEDUCED (log 84): a subnormal result, which under FTZ only a chain constant can
give, is returned as it stands and sets no flag: Table 5.4 lets these operations set IV alone. -/
def fpMinMax (t : Nat) (mx : Bool) (a b : Nat) : Nat × Nat :=
  let fl := if fpSnan t a || fpSnan t b then fIV else 0
  if fpNan t a && fpNan t b then (quieten t a, fl)
  else if fpNan t a then (b, fl)
  else if fpNan t b then (a, fl)
  else
    let below := fpLt t a b || (fpEq t a b && fpSign t a && !fpSign t b)
    (if below != mx then a else b, fl)

/-- Comparisons (R138): 0 equal, 1 less, 2 less or equal, 3 unordered. -/
def fpCmp (t k a b : Nat) : Nat × Nat :=
  let nan := fpNan t a || fpNan t b
  let sig := fpSnan t a || fpSnan t b
  let fl := if sig || (nan && (k == 1 || k == 2)) then fIV else 0
  (b2n (if nan then k == 3 else match k with
    | 0 => fpEq t a b
    | 1 => fpLt t a b
    | 2 => fpLt t a b || fpEq t a b
    | _ => false), fl)

/-! ## Conversions (R134, R139) -/

/-- A NaN of one type as a NaN of another. -/
def nanTo (src dst x : Nat) : Nat :=
  let q := quieten src x
  let f := fpFrac src q
  let fs := fracBits src
  let fd := fracBits dst
  let frac := if fd ≤ fs then f / 2 ^ (fs - fd) else f * 2 ^ (fd - fs)
  fpSignBit dst (fpSign src x) + expMax dst * 2 ^ fd + frac

/-- FP to FP. -/
def fpToFp (src dst rm : Nat) (ftz : Bool) (x : Nat) : Nat × Nat :=
  if fpNan src x then (nanTo src dst x, if fpSnan src x then fIV else 0)
  else if fpInf src x then (mkInf dst (fpSign src x), 0)
  else if fpZero src x then (mkZero dst (fpSign src x), 0)
  else
    let m := fpMag src x
    roundFp dst rm ftz (fpSign src x) m.1 m.2

/-- Least value of an integer type. -/
def intMin (t : Nat) : Int := if isSigned t then -((2 ^ (tyWidth t - 1) : Nat) : Int) else 0

/-- Greatest value of an integer type. -/
def intMax (t : Nat) : Int :=
  if isSigned t then ((2 ^ (tyWidth t - 1) : Nat) : Int) - 1 else ((2 ^ tyWidth t : Nat) : Int) - 1

/-- The bits of an integer at a width. -/
def intBits (t : Nat) (i : Int) : Nat := (i % ((2 ^ tyWidth t : Nat) : Int)).toNat

/-- The integer that bits spell in a type (R123). -/
def intVal (t x : Nat) : Int := if isSigned t then sx (tyWidth t) x else ((x % 2 ^ tyWidth t : Nat) : Int)

/-- FP to integer. -/
def fpToInt (src dst rm x : Nat) : Nat × Nat :=
  if fpNan src x then (0, fIV)
  else
    let neg := fpSign src x
    if fpInf src x then (intBits dst (if neg then intMin dst else intMax dst), fIV)
    else
      let m := fpMag src x
      let r := roundAt rm neg m.1 m.2 0
      let i : Int := if neg then -(r.1 : Int) else (r.1 : Int)
      if i < intMin dst then (intBits dst (intMin dst), fIV)
      else if intMax dst < i then (intBits dst (intMax dst), fIV)
      else (intBits dst i, if r.2 then 0 else fIX)

/-- Integer to FP. -/
def intToFp (src dst rm : Nat) (ftz : Bool) (x : Nat) : Nat × Nat :=
  let i := intVal src x
  if i = 0 then (0, 0) else roundFp dst rm ftz (decide (i < 0)) i.natAbs 0

/-- Integer to integer. -/
def intToInt (src dst x : Nat) : Nat × Nat :=
  let i := intVal src x
  let r := intBits dst i
  (r, if intVal dst r = i then 0 else fV)

end Sys2Proof.Machine
end

