-- ==== Sys2Proof/Machine/ChainTab.lean ====
section
/-! DEFINITION. Machine/ChainTab.lean: chain table entries (Tables 4.3 to 4.7), the conditions of R102 with the source types
of R528, the standard entries (Table 4.9) and the result of one node operation (R97, R136-R140). -/

namespace Sys2Proof.Machine

/-! ## Entries -/

/-- A chain table entry as its register words (R101): header, node words, constants. -/
structure ChainEntry where
  hdr : Word
  nodes : List Word
  consts : List Word
  deriving DecidableEq, Repr

/-- A node word's fields (Table 4.6). -/
structure NodeW where
  op : Nat
  unit : Nat
  ty : Nat
  srcs : List Nat
  deriving DecidableEq, Repr

/-- Decode a node word. -/
def nodeOf (w : Word) : NodeW :=
  ⟨fget w F.TIL_CHAIN_NODE_OP, fget w F.TIL_CHAIN_NODE_UNIT, fget w F.TIL_CHAIN_NODE_TYPE,
   [fget w F.TIL_CHAIN_NODE_SRC1, fget w F.TIL_CHAIN_NODE_SRC2, fget w F.TIL_CHAIN_NODE_SRC3]⟩

/-- Node k of an entry. -/
def ChainEntry.node (x : ChainEntry) (k : Nat) : NodeW := nodeOf (x.nodes.getD k 0#64)

/-- Number of the last node. -/
def ChainEntry.last (x : ChainEntry) : Nat := fget x.hdr F.TIL_CHAIN_HDR_LAST_NODE

/-- The element type of a node for a stream's ETYPE. -/
def ChainEntry.nodeTy (x : ChainEntry) (k et : Nat) : Nat := if (x.node k).ty = 0xF then et else (x.node k).ty

/-- Does the header accept an ETYPE? Bit 3 of TYPES reads 0. -/
def ChainEntry.accepts (x : ChainEntry) (et : Nat) : Bool :=
  et != 3 && decide (et < 12) && bit (fget x.hdr F.TIL_CHAIN_HDR_TYPES) et

/-- Is destination `d` enabled? -/
def ChainEntry.destEn (x : ChainEntry) (d : Nat) : Bool :=
  fget x.hdr (if d = 0 then F.TIL_CHAIN_HDR_D0_EN else F.TIL_CHAIN_HDR_D1_EN) == 1

/-- The node that destination `d` takes. -/
def ChainEntry.destNode (x : ChainEntry) (d : Nat) : Nat :=
  fget x.hdr (if d = 0 then F.TIL_CHAIN_HDR_D0_NODE else F.TIL_CHAIN_HDR_D1_NODE)

/-- Does the entry read source slot 0 A, 1 B, 2 C? -/
def ChainEntry.usesSlot (x : ChainEntry) (k : Nat) : Bool :=
  fget x.hdr (if k = 0 then F.TIL_CHAIN_HDR_USE_A else if k = 1 then F.TIL_CHAIN_HDR_USE_B else F.TIL_CHAIN_HDR_USE_C) == 1

/-! ## Operations (Table 4.3) -/

/-- Reduction operations. -/
def isReduction (op : Nat) : Bool := decide (0x40 ≤ op) && decide (op ≤ 0x43)

/-- Scan operations. -/
def isScan (op : Nat) : Bool := decide (0x48 ≤ op) && decide (op ≤ 0x4A)

/-- Number of sources of a listed operation; none for an unlisted OP. -/
def opArity (op : Nat) : Option Nat :=
  if 0x01 ≤ op ∧ op ≤ 0x04 then some 3
  else if 0x05 ≤ op ∧ op ≤ 0x09 then some 2
  else if [0x10, 0x13, 0x14, 0x18, 0x24, 0x25, 0x30, 0x31, 0x39].contains op then some 1
  else if op = 0x1F then some 3
  else if 0x11 ≤ op ∧ op ≤ 0x29 then some 2
  else if op = 0x38 ∨ op = 0x3A ∨ op = 0x3B then some 2
  else if isReduction op || isScan op then some 1
  else none

/-- Is a UNIT code the one that Table 4.3 gives for an operation? -/
def unitOk (op unit : Nat) : Bool :=
  if op ≤ 0x09 then decide (unit ≤ 1)
  else if op ≤ 0x29 then unit == 2
  else if op ≤ 0x31 then unit == 3
  else if op ≤ 0x3B then unit == 4
  else unit == 5

/-- The kind of types that an operation takes. -/
inductive OpKind where
  | fp | int | sint | any | sel | icmp | fcmp | cvt | cvtt | fpOrInt
  deriving DecidableEq, Repr

/-- The Types column of Table 4.3. -/
def opKind (op : Nat) : OpKind :=
  if op ≤ 0x07 then .fp
  else if op ≤ 0x09 then .int
  else if op = 0x10 then .any
  else if op = 0x13 ∨ op = 0x14 ∨ op = 0x1B then .sint
  else if 0x1C ≤ op ∧ op ≤ 0x1E then .icmp
  else if op = 0x1F then .sel
  else if op ≤ 0x21 then .int
  else if op ≤ 0x25 then .fp
  else if op ≤ 0x29 then .fcmp
  else if op = 0x30 then .cvt
  else if op = 0x31 then .cvtt
  else if op ≤ 0x39 then .fp
  else if op ≤ 0x3B then .int
  else if op = 0x43 then .int
  else .fpOrInt

/-! ## Source types (Table 4.4, R528) -/

/-- A constant source. -/
def isConst (s : Nat) : Bool := decide (0x08 ≤ s) && decide (s ≤ 0x0B)

/-- Is a code a source that node k may name? -/
def srcOk (s k : Nat) : Bool :=
  (decide (1 ≤ s) && decide (s ≤ 5)) || isConst s || (decide (0x10 ≤ s) && decide (s ≤ 0x16) && decide (s - 0x10 < k))

/-- The type of a source that is no constant. -/
def ChainEntry.srcTy (x : ChainEntry) (s et : Nat) : Nat :=
  if s ≤ 3 then et else if s = 4 then 0xB else if s = 5 then 5 else x.nodeTy (s - 0x10) et

/-- The unsigned type of a width. -/
def uintOf (t : Nat) : Nat := match tySize t with | 8 => 5 | 4 => 7 | 2 => 9 | _ => 0xB

/-- The type in which node k reads source `i` (R528). -/
def ChainEntry.readTy (x : ChainEntry) (k i et : Nat) : Nat :=
  let n := x.node k
  let s := n.srcs.getD i 0
  let ty := x.nodeTy k et
  if !isConst s then x.srcTy s et
  else match opKind n.op with
    | .icmp | .fcmp =>
      let o := n.srcs.getD (1 - i) 0
      if isConst o then et else x.srcTy o et
    | .cvt | .cvtt => et
    | .sel => if i = 0 then uintOf ty else ty
    | _ => ty

/-- The type conditions of node k for an accepted ETYPE. -/
def ChainEntry.typesOk (x : ChainEntry) (k et : Nat) : Bool :=
  let n := x.node k
  let ty := x.nodeTy k et
  let tys := (List.range ((opArity n.op).getD 0)).map fun i => x.readTy k i et
  let same := tys.all (· == ty)
  let t0 := tys.getD 0 3
  let t1 := tys.getD 1 3
  okType ty && (match opKind n.op with
    | .fp => isFp ty && same
    | .int => isInt ty && same
    | .sint => isSigned ty && same
    | .any | .fpOrInt => same
    | .sel => isInt t0 && t1 == ty && tys.getD 2 3 == ty
    | .icmp => isInt ty && isInt t0 && t0 == t1
    | .fcmp => isInt ty && isFp t0 && t0 == t1
    | .cvt => okType t0
    | .cvtt => isFp t0 && isInt ty)

/-- The sources that node k uses. -/
def ChainEntry.used (x : ChainEntry) (k : Nat) : List Nat :=
  (x.node k).srcs.take ((opArity (x.node k).op).getD 0)

/-- R102: the conditions on which the executive sets VALID. -/
def ChainEntry.ok (x : ChainEntry) : Bool :=
  let ks := List.range (x.last + 1)
  let red := fun (k : Nat) => isReduction (x.node k).op
  let ets := (List.range 12).filter x.accepts
  (ks.all fun k =>
    (opArity (x.node k).op).isSome && unitOk (x.node k).op (x.node k).unit
      && ((x.node k).ty == 0xF || okType (x.node k).ty)
      && (x.used k).all (fun s => srcOk s k && (decide (s < 0x10) || !red (s - 0x10)))
      && ets.all (x.typesOk k))
    && ((List.range 3).all fun i => x.usesSlot i == ks.any fun k => (x.used k).contains (i + 1))
    && (x.destEn 0 || x.destEn 1)
    && ([0, 1].all fun d => !x.destEn d || decide (x.destNode d ≤ x.last))
    && decide ((ks.filter fun k => (x.node k).unit == 5).length ≤ 1)
    && !(x.destEn 0 && x.destEn 1 && red (x.destNode 0) && red (x.destNode 1))

/-- R142: the nodes whose output reaches an enabled destination, found from the last node down. -/
def ChainEntry.live (x : ChainEntry) : List Nat :=
  let start := [0, 1].filterMap fun d => if x.destEn d then some (x.destNode d) else none
  ((List.range (x.last + 1)).reverse.foldl (fun acc k =>
    if acc.contains k then acc ++ ((x.used k).filter fun s => decide (0x10 ≤ s)).map (· - 0x10) else acc) start).eraseDups

/-- Is a destination the single result of a reduction? -/
def ChainEntry.destReduces (x : ChainEntry) (d : Nat) : Bool := isReduction (x.node (x.destNode d)).op

/-! ## Standard entries (Table 4.9) -/

/-- A node word with TYPE 0xF. -/
def stdNode (op unit s1 s2 s3 : Nat) : Word :=
  wNat (fat F.TIL_CHAIN_NODE_OP op + fat F.TIL_CHAIN_NODE_UNIT unit + fat F.TIL_CHAIN_NODE_TYPE 0xF
    + fat F.TIL_CHAIN_NODE_SRC1 s1 + fat F.TIL_CHAIN_NODE_SRC2 s2 + fat F.TIL_CHAIN_NODE_SRC3 s3)

/-- A header with D0 enabled: accepted types, slots read, last node. -/
def stdHdr (types uses last : Nat) : Word :=
  wNat (fat F.TIL_CHAIN_HDR_VALID 1 + fat F.TIL_CHAIN_HDR_LAST_NODE last + fat F.TIL_CHAIN_HDR_TYPES types
    + fat F.TIL_CHAIN_HDR_USE_A 1 + fat F.TIL_CHAIN_HDR_USE_B (b2n (decide (2 ≤ uses)))
    + fat F.TIL_CHAIN_HDR_USE_C (b2n (decide (3 ≤ uses))) + fat F.TIL_CHAIN_HDR_D0_EN 1
    + fat F.TIL_CHAIN_HDR_D0_NODE last)

/-- Entries 0 to 15. -/
def stdEntries : List (Word × List Word) :=
  [ (stdHdr 0xFF7 1 0, [stdNode 0x10 2 1 0 0]), (stdHdr 0x007 2 0, [stdNode 0x05 0 1 2 0]),
    (stdHdr 0x007 2 0, [stdNode 0x06 0 1 2 0]), (stdHdr 0x007 2 0, [stdNode 0x07 0 1 2 0]),
    (stdHdr 0xFF0 2 0, [stdNode 0x11 2 1 2 0]), (stdHdr 0xFF0 2 0, [stdNode 0x12 2 1 2 0]),
    (stdHdr 0xFF0 2 0, [stdNode 0x08 0 1 2 0]), (stdHdr 0x007 2 0, [stdNode 0x38 4 1 2 0]),
    (stdHdr 0x007 1 0, [stdNode 0x39 4 1 0 0]), (stdHdr 0x007 2 0, [stdNode 0x22 2 1 2 0]),
    (stdHdr 0x007 2 0, [stdNode 0x23 2 1 2 0]), (stdHdr 0x007 3 0, [stdNode 0x02 0 1 2 3]),
    (stdHdr 0x007 3 0, [stdNode 0x01 0 1 2 3]), (stdHdr 0x007 2 1, [stdNode 0x07 0 1 2 0, stdNode 0x40 5 0x10 0 0]),
    (stdHdr 0xFF7 1 0, [stdNode 0x40 5 1 0 0]), (stdHdr 0xFF7 1 0, [stdNode 0x48 5 1 0 0]) ]

/-- An entry of a cluster's chain table. -/
def Chip.chainEntry (c : Chip) (n e : Nat) : ChainEntry :=
  { hdr := c.reg (R.TIL_CHAIN_HDR n e), nodes := (List.range 8).map fun k => c.reg (R.TIL_CHAIN_NODE n (8 * e + k)),
    consts := (List.range 4).map fun j => c.reg (R.TIL_CHAIN_K n (4 * e + j)) }

/-- Write an entry. -/
def Chip.setChainEntry (c : Chip) (n e : Nat) (x : ChainEntry) : Chip :=
  let c1 := c.setReg (R.TIL_CHAIN_HDR n e) x.hdr
  let c2 := (List.range 8).foldl (fun c k => c.setReg (R.TIL_CHAIN_NODE n (8 * e + k)) (x.nodes.getD k 0#64)) c1
  (List.range 4).foldl (fun c j => c.setReg (R.TIL_CHAIN_K n (4 * e + j)) (x.consts.getD j 0#64)) c2

/-- R106: the executive loads the standard chains of a cluster. -/
def Chip.loadStd (c : Chip) (n : Nat) : Chip :=
  (List.range 16).foldl (fun c e =>
    let x := stdEntries.getD e (0#64, [])
    c.setChainEntry n e ⟨x.1, x.2, []⟩) c

/-- R106: at a job's start VALID of entries 16 to 63 is cleared. -/
def Chip.clearChains (c : Chip) (n : Nat) : Chip :=
  (List.range 48).foldl (fun c i => c.setFld (R.TIL_CHAIN_HDR n (16 + i)) F.TIL_CHAIN_HDR_VALID 0) c

/-! ## One node operation -/

/-- Does an operation read FP operands under FTZ? Bit copies do not (R135). -/
def readsFtz (op : Nat) : Bool := !([0x10, 0x1F, 0x24, 0x25].contains op)

/-- An operand as a node reads it: FTZ applies to an FP operand in its read type unless it is a constant (R124, R130). -/
def readOperand (op ty : Nat) (ftz const : Bool) (v : Nat) : Nat :=
  let v := v % 2 ^ tyWidth ty
  if isFp ty && readsFtz op && !const then readFp ty ftz v else v

/-- Result with V when the exact integer lies outside the type (R140). -/
def intRes (t : Nat) (i : Int) : Nat × Nat :=
  let r := intBits t i
  (r, if intVal t r = i then 0 else fV)

/-- S.IDIV and S.IREM (R140): quotient, remainder, flags. -/
def intDiv (t a b : Nat) : Nat × Nat × Nat :=
  let x := intVal t a
  let y := intVal t b
  if y = 0 then
    (intBits t (if isSigned t && decide (x < 0) then intMin t else intMax t), intBits t x, fIDZ)
  else if isSigned t && x == intMin t && y == -1 then (intBits t (intMin t), 0, fV)
  else (intBits t (x.tdiv y), intBits t (x.tmod y), 0)

/-- Shifts (R140): `k` 0 left, 1 right logical, 2 right arithmetic; the count is the bit pattern, unsigned. -/
def intShift (t k a n : Nat) : Nat :=
  let w := tyWidth t
  let a := a % 2 ^ w
  match k with
  | 0 => if w ≤ n then 0 else a * 2 ^ n % 2 ^ w
  | 1 => if w ≤ n then 0 else a / 2 ^ n
  | _ => intBits t (sx w a / (2 ^ min n w : Nat))

/-- S.CVT and S.CVTT. -/
def convert (src dst rm : Nat) (ftz : Bool) (x : Nat) : Nat × Nat :=
  if isFp src then
    if isFp dst then fpToFp src dst rm ftz x else fpToInt src dst rm x
  else if isFp dst then intToFp src dst rm ftz x else intToInt src dst x

/-- One combining step of a reduction or scan (R107, R109). -/
def combine (op t rm : Nat) (ftz : Bool) (a b : Nat) : Nat × Nat :=
  match op with
  | 0x40 | 0x48 => if isFp t then fpAdd t rm ftz a b else intRes t (intVal t a + intVal t b)
  | 0x41 | 0x49 => if isFp t then fpMinMax t false a b else (if intVal t b < intVal t a then b else a, 0)
  | 0x42 | 0x4A => if isFp t then fpMinMax t true a b else (if intVal t a < intVal t b then b else a, 0)
  | _ => (Nat.lor a b, 0)

/-- R108: the identity of a reduction. -/
def identity (op t : Nat) : Nat :=
  match op with
  | 0x41 => if isFp t then mkInf t false else intBits t (intMax t)
  | 0x42 => if isFp t then mkInf t true else intBits t (intMin t)
  | _ => 0

/-- The result and flags of a node operation in type `t`, sources read in type `st` (Table 4.3, Table 5.4, R140). DESIGN CHOICE (log 84): an OP
that the table does not list, which only an entry that breaks R102 holds, gives an open result and open flags. -/
def nodeOp (op t st rm : Nat) (ftz : Bool) (a b d : Nat) : Nat × Nat :=
  match op with
  | 0x01 => fpFma t rm ftz false false a b d
  | 0x02 => fpFma t rm ftz false true a b d
  | 0x03 => fpFma t rm ftz true false a b d
  | 0x04 => fpFma t rm ftz true true a b d
  | 0x05 => fpAdd t rm ftz a b
  | 0x06 => fpSubtract t rm ftz a b
  | 0x07 => fpMul t rm ftz a b
  | 0x08 => intRes t (intVal t a * intVal t b)
  | 0x09 => (intBits t (intVal t a * intVal t b / (2 ^ tyWidth t : Nat)), 0)
  | 0x10 => (a, 0)
  | 0x11 => intRes t (intVal t a + intVal t b)
  | 0x12 => intRes t (intVal t a - intVal t b)
  | 0x13 => intRes t (-intVal t a)
  | 0x14 => if intVal t a = intMin t then (intBits t (intMax t), fV) else (intBits t (-intVal t a), 0)
  | 0x15 => (Nat.land a b, 0)
  | 0x16 => (Nat.lor a b, 0)
  | 0x17 => (nxor a b, 0)
  | 0x18 => (2 ^ tyWidth t - 1 - a, 0)
  | 0x19 => (intShift t 0 a b, 0)
  | 0x1A => (intShift t 1 a b, 0)
  | 0x1B => (intShift t 2 a b, 0)
  | 0x1C => (b2n (decide (intVal st a = intVal st b)), 0)
  | 0x1D => (b2n (decide (intVal st a < intVal st b)), 0)
  | 0x1E => (b2n (decide (intVal st a ≤ intVal st b)), 0)
  | 0x1F => (if a = 0 then d else b, 0)
  | 0x20 => (if intVal t b < intVal t a then b else a, 0)
  | 0x21 => (if intVal t a < intVal t b then b else a, 0)
  | 0x22 => fpMinMax t false a b
  | 0x23 => fpMinMax t true a b
  | 0x24 => (a % 2 ^ (tyWidth t - 1), 0)
  | 0x25 => (fpNegate t a, 0)
  | 0x26 => fpCmp st 0 a b
  | 0x27 => fpCmp st 1 a b
  | 0x28 => fpCmp st 2 a b
  | 0x29 => fpCmp st 3 a b
  | 0x30 => convert st t rm ftz a
  | 0x31 => convert st t 1 ftz a
  | 0x38 => fpDiv t rm ftz a b
  | 0x39 => fpSqrt t rm ftz a
  | 0x3A => ((intDiv t a b).1, (intDiv t a b).2.2)
  | 0x3B => ((intDiv t a b).2.1, (intDiv t a b).2.2)
  | _ => (Config.openNode [0, op, t, a, b, d] % 2 ^ tyWidth t, Config.openNode [1, op, t, a, b, d] % 128)

end Sys2Proof.Machine
end

