-- ==== Sys2Proof/Machine/Query.lean ====
section
/-! DEFINITION. Machine/Query.lean: the commands that report, clear records, take ownership, submit and abort jobs (R415,
R418-R420, R529, R356, R411). -/

namespace Sys2Proof.Machine

/-! ## Identification, status and records -/

/-- Words of the CMD_IDENTIFY response (Table 15.5): part number (Table 0.1, its last letter the variant), serial number,
release, SLOT_ID and the two addresses. -/
def Chip.identify (c : Chip) (ch : Nat) : List Word :=
  [0x4D2D30343631584B#64, wNat (0x2D38 + c.fuses.variant * 2 ^ 16), wNat c.fuses.serial,
   wNat (c.fuses.serial / 2 ^ 64), c.mgmt.release,
   wNat (c.pins.slotId * 2 ^ 16 + c.fld (R.LNK_ADDR (1 - ch)) F.LNK_ADDR_ADDR * 2 ^ 8
     + c.fld (R.LNK_ADDR ch) F.LNK_ADDR_ADDR)]

/-- Jobs of a partition that wait and that run. -/
def Chip.queuedJobs (c : Chip) (p : Nat) : Nat := (c.openJobs.filter fun j => j.part == p && !j.started).length

/-- Jobs of a partition that run. -/
def Chip.runningJobs (c : Chip) (p : Nat) : Nat := (c.openJobs.filter fun j => j.part == p && j.started).length

/-- R411: acknowledge what the previous partition form listed, when asked, then list up to 64 handles, oldest first. -/
def DoneList.report (x : DoneList) (ack : Bool) : List Nat × Bool × DoneList :=
  let hs := if ack then x.handles.filter fun h => !x.listed.contains h else x.handles
  (hs.take 64, x.dropped, { handles := hs, dropped := false, listed := hs.take 64 })

/-- The key of the list of one partition for one chain. -/
def doneKey (p ch : Nat) : Nat := p * 2 + ch

/-- CMD_STATUS without RECHECK, partition form. -/
def Chip.statusPart (c : Chip) (cmd : Cmd) : Chip :=
  let p := cmd.part % 4
  let k := doneKey p cmd.chain
  let r := (mget {} c.mgmt.done k : DoneList).report (bit (cmd.p 0) 62)
  let c1 := { c with mgmt := { c.mgmt with done := mset c.mgmt.done k r.2.2 } }
  c1.respond cmd St.ok ([c.readReg (R.PAR_CTRL p), c.readReg (R.PAR_STATUS p),
    wNat (b2n r.2.1 * 2 ^ 63 + c.queuedJobs p * 2 ^ 32 + c.runningJobs p)] ++ r.1.map wNat)

/-- CMD_STATUS without RECHECK, module form. -/
def Chip.statusModule (c : Chip) (cmd : Cmd) : Chip :=
  c.respond cmd St.ok (((List.range 4).map fun p => c.readReg (R.PAR_STATUS p)) ++
    [wNat (b2n c.faults.hbArmed * 2 ^ 5 + c.fld R.HUB_BOOT_STAT F.HUB_BOOT_STAT_READY * 2 ^ 4
      + b2n c.faults.halted * 2 ^ 3 + c.pState)])

/-- CMD_STATUS with RECHECK (R372): the entry is rewritten, EV002 raised, and the entry answered. -/
def Chip.statusRecheck (c : Chip) (cmd : Cmd) : Chip :=
  let i := cmd.p 0 % 128
  if 90 < i then c.respond cmd St.param []
  else
    let c1 := c.recheckView i
    let e := c1.viewEntry i
    c1.respond cmd St.ok [e.1, e.2.1, e.2.2.1, wNat e.2.2.2]

/-- CMD_FAULT_READ: from the management view, with FLT_TIME and FLT_COUNT of the inst, or an entry of the flash log. -/
def Chip.faultRead (c : Chip) (cmd : Cmd) : Chip :=
  let i := cmd.p 0 % 32768
  if bit (cmd.p 0) 15 then
    match c.flash.log[i]? with
    | some e => c.respond cmd St.ok [e.stat, e.info, e.fence, e.time, e.count, wNat e.gen, wNat e.hubTime]
    | none => c.respond cmd St.param []
  else if 90 < i then c.respond cmd St.param []
  else
    let e := c.viewEntry i
    c.respond cmd St.ok [e.1, e.2.1, e.2.2.1, c.readReg (R.FLT_TIME i), c.readReg (R.FLT_COUNT i), wNat e.2.2.2]

/-- R356: may the chain clear the record of inst `i`? -/
def Chip.mayClear (c : Chip) (ch i : Nat) : Bool :=
  let enabled := (List.range 4).filter c.parEn
  let any := enabled.isEmpty || enabled.any fun p => c.owner p == ch
  if 90 ≤ i then false
  else if 76 ≤ i then any
  else match c.partOf (if i < 48 then i / 12 else (i - 48) / 7) with
    | some p => c.owner p == ch
    | none => any

/-- R356: clear one record: VALID, OVF, INJ, INJ_COINCIDENT and FLT_INFO. -/
def Chip.clearRecord (c : Chip) (i : Nat) : Chip :=
  let w := c.reg (R.FLT_STAT i)
  let w := fput (fput (fput (fput w F.FLT_STAT_VALID 0) F.FLT_STAT_OVF 0) F.FLT_STAT_INJ 0) F.FLT_STAT_INJ_COINCIDENT 0
  (c.setReg (R.FLT_STAT i) w).setReg (R.FLT_INFO i) 0#64

/-- The insts that the two words of CMD_FAULT_CLEAR name. -/
def clearNames (cmd : Cmd) : List Nat := onesOf 64 (cmd.p 0) ++ (onesOf 64 (cmd.p 1)).map (64 + ·)

/-- CMD_FAULT_CLEAR: all named records, or none (R356). -/
def Chip.faultClear (c : Chip) (cmd : Cmd) : Chip :=
  let l := clearNames cmd
  if l.all (c.mayClear cmd.chain) then (l.foldl Chip.clearRecord c).respond cmd St.ok []
  else c.respond cmd St.param []

/-! ## Tables, ownership and jobs -/

/-- CMD_MAP_READ (R529): the entries in ascending number, each through the index register, then the table's count word. -/
def Chip.mapRead (c : Chip) (cmd : Cmd) : Chip :=
  let w := cmd.p 0
  let d := bits w 49 48
  let rct := bit w 40
  let n := bits w 38 32
  let first := bits w 11 0
  if n = 0 ∨ 64 < n ∨ (if rct then 64 else 4096) < first + n then c.respond cmd St.param []
  else
    let ks := (List.range n).map (first + ·)
    let last := wNat (first + n - 1)
    if rct then
      (c.setReg (R.HOG_RCT_IDX d) last).respond cmd St.ok (ks.map (c.rctWord d) ++ [c.readReg (R.HOG_RCT_STAT d)])
    else
      (c.setReg (R.RES_RET_IDX d) last).respond cmd St.ok (ks.map (c.retWord d) ++ [c.readReg (R.RES_RET_COUNT d)])

/-- CMD_TAKEOVER (R415): the sender becomes the owner; EV003 names the partition and the new owner. -/
def Chip.takeover (c : Chip) (cmd : Cmd) : Chip :=
  let p := cmd.part % 4
  ((c.setFld (R.PAR_CTRL p) F.PAR_CTRL_OWNER cmd.chain).raise 3 (p * 2 + cmd.chain)).respond cmd St.ok
    [wNat (c.owner p)]

/-- R419: does an address lie in the populated memory of a partition? -/
def Chip.populated (c : Chip) (p a : Nat) : Bool := c.memArea p a 1 0x06000000

/-- CMD_JOB_SUBMIT (R419). -/
def Chip.jobSubmit (c : Chip) (cmd : Cmd) : Chip :=
  let p := cmd.part % 4
  let entry := cmd.p 0
  let pb := cmd.p 1
  if entry % 4 ≠ 0 ∨ pb % 64 ≠ 0 ∨ c.populated p entry = false ∨ c.populated p pb = false then
    c.respond cmd St.param []
  else if 256 ≤ (c.openHandles p).length then c.respond cmd St.resource []
  else
    let n := mget 0 c.mgmt.nextJob p + 1
    let h := p * 2 ^ 30 + n % 2 ^ 30
    let j : Job := { handle := h, part := p, chain := cmd.chain, tag := cmd.tag, cseq := cmd.cseq, entry := entry,
                     pblock := pb }
    let c1 := { c with mgmt := { c.mgmt with jobs := c.mgmt.jobs ++ [j], nextJob := mset c.mgmt.nextJob p n } }
    c1.respond cmd St.ok [wNat h, wNat (c.queuedJobs p)]

/-- CMD_JOB_ABORT (R420). -/
def Chip.jobAbort (c : Chip) (m : Memory) (cmd : Cmd) : Chip :=
  let p := cmd.part % 4
  let h := cmd.p 0
  if (c.openHandles p).contains h then (c.discardJob m h St.aborted 0 0).respond cmd St.ok []
  else c.respond cmd St.param []

/-! ## Meanings -/

/-- CMD_IDENTIFY (R2, R418). -/
def execCmdIdentify (c : Cmd) (s : State) : Out :=
  s.goChip (s.chip.serve 0x01 c fun x cmd => x.respond cmd St.ok (x.identify cmd.chain))

/-- CMD_STATUS (R372, R411, R418). -/
def execCmdStatus (c : Cmd) (s : State) : Out :=
  s.goChip (s.chip.serve 0x02 c fun x cmd =>
    if bit (cmd.p 0) 63 then x.statusRecheck cmd
    else if cmd.mod then x.statusModule cmd else x.statusPart cmd)

/-- CMD_FAULT_READ (R371, R418). -/
def execCmdFaultRead (c : Cmd) (s : State) : Out := s.goChip (s.chip.serve 0x03 c Chip.faultRead)

/-- CMD_FAULT_CLEAR (R356). `same` are detections of the clear's own cycle: they win over it. -/
def execCmdFaultClear (c : Cmd) (same : List Detection) (s : State) : Out :=
  s.goChip ((s.chip.serve 0x04 c Chip.faultClear).detectAll s.mem same)

/-- CMD_MAP_READ (R529). -/
def execCmdMapRead (c : Cmd) (s : State) : Out := s.goChip (s.chip.serve 0x35 c Chip.mapRead)

/-- CMD_TAKEOVER (R415). -/
def execCmdTakeover (c : Cmd) (s : State) : Out := s.goChip (s.chip.serve 0x13 c Chip.takeover)

/-- CMD_JOB_SUBMIT (R419). -/
def execCmdJobSubmit (c : Cmd) (s : State) : Out := s.goChip (s.chip.serve 0x20 c Chip.jobSubmit)

/-- CMD_JOB_ABORT (R420). -/
def execCmdJobAbort (c : Cmd) (s : State) : Out :=
  s.goChip (s.chip.serve 0x21 c fun x cmd => x.jobAbort s.mem cmd)

end Sys2Proof.Machine
end

