-- ==== Sys2Proof/Machine/Partition.lean ====
section
/-! DEFINITION. Machine/Partition.lean: forming partitions (R29-R33), mode transitions (R41-R45, R209, R225, R303, R319,
R439), the start of the Fox executive (R488) and the end of debug sessions (R461). -/

namespace Sys2Proof.Machine

/-! ## Sessions -/

/-- R461: close a partition's session and drop its nonce; EV265 carries the cause when a session was open. -/
def Chip.closeSession (c : Chip) (p cause : Nat) : Chip :=
  let was := c.sessionOpen p
  let c1 := { c with sec := { c.sec with nonces := mdel c.sec.nonces p } }
  let c2 := (c1.setReg (R.DBG_SESSION p) 0#64).setFld (R.PAR_STATUS p) F.PAR_STATUS_DEBUG 0
  if was then c2.raise 265 cause else c2

/-- Close every session. -/
def Chip.closeSessions (c : Chip) (cause : Nat) : Chip := (List.range 4).foldl (fun c p => c.closeSession p cause) c

/-! ## Cores of a cluster -/

/-- A core as HOLD releases it (R488): context 0, supervisor mode, fetching from ENTRY. -/
def releasedCore (entry : Nat) : Core := { run := .executing, pc := entry }

/-- Release the unfenced cores of a cluster that have a part in its configuration; a cold spare stays in reset. -/
def Chip.releaseCores (c : Chip) (n : Nat) : Chip :=
  (List.range 3).foldl (fun c k =>
    if c.coreFenced n k || c.cluFenced n then c
    else if c.fld (R.OWL_CORE n k) F.OWL_CORE_ROLE = 3 then c.setCore (3 * n + k) {}
    else c.setCore (3 * n + k) (releasedCore (c.entryOf n))) c

/-- The address at which Badger starts the Fox executive of a die: in the copy of the executive image at offset 0x05EC_0000
of the die's scratch. DESIGN CHOICE: the image's entry point is not stated, so it is open. -/
def execAddr (d : Nat) : Nat := 0x4000_05EC_0000 + d * 0x10000000 + Config.execEntry % 0x30000 / 4 * 4

/-- The Den of core `k` as the executive has written it before first use (R334). -/
def denFill (k : Nat) (m : Memory) : Memory := memFill (fun i => (Config.denImage k i).toNat) (denBase k) 0 0x4000 m

/-- Start the Fox executive on a cluster: its issue unit is empty, ENTRY is written, HOLD is cleared, the Dens are written. -/
def Chip.startExec (c : Chip) (n : Nat) : Chip :=
  let c1 := (c.clearIssue n).setReg (R.FOX_CTRL n) (wNat (fat F.FOX_CTRL_ENTRY (execAddr (n / 12) / 4)))
  let c2 := c1.setClu n { c1.clu n with job := none, rank := 0, inBarrier := false, returned := false, haltAt := none }
  c2.releaseCores n

/-- The Dens of a cluster's cores as the executive has written them. -/
def clusterDens (n : Nat) (m : Memory) : Memory := (List.range 3).foldl (fun m k => denFill (3 * n + k) m) m

/-- Hold the cores that the configuration leaves out (cold spares). -/
def Chip.holdSpares (c : Chip) (n : Nat) : Chip :=
  (List.range 3).foldl (fun c k =>
    if c.fld (R.OWL_CORE n k) F.OWL_CORE_ROLE = 3 && !c.coreFenced n k then c.setCore (3 * n + k) {} else c) c

/-- Hold every unfenced core of a cluster in reset (R488, Tables 11.8, 11.9): CONFIG 0 and no role; a cluster that has been stopped
keeps CONFIG 4 until it restarts. -/
def Chip.holdCluster (c : Chip) (n : Nat) : Chip :=
  if c.cluFenced n then c
  else
    let c1 := (List.range 3).foldl (fun c k =>
      if c.coreFenced n k then c else (c.setCore (3 * n + k) {}).setFld (R.OWL_CORE n k) F.OWL_CORE_ROLE 3) c
    if (c.clu n).stop = .running then c1.setFld (R.OWL_STAT n) F.OWL_STAT_CONFIG 0 else c1

/-! ## Clocks -/

/-- Put a running cluster island to a clock. -/
def Chip.setClock (c : Chip) (n mhz : Nat) : Chip :=
  let a := R.CLK_CLUSTER n
  let c := c.rebase n
  let w := fput (c.reg a) F.CLK_CLUSTER_CUR_MHZ mhz
  let pol := fget w F.CLK_CLUSTER_POLICY_MHZ
  c.setReg a (fput w F.CLK_CLUSTER_BOOST (b2n (decide (pol < mhz))))

/-- R18, R473, R474: a cluster island moves to a new policy clock; an island that a protective loop holds stays no faster than it is, and a
pinned one does not move. -/
def Chip.setPolicy (c : Chip) (mhz n : Nat) : Chip :=
  let a := R.CLK_CLUSTER n
  if c.flag a F.CLK_CLUSTER_PINNED then c
  else
    let c1 := c.setFld a F.CLK_CLUSTER_POLICY_MHZ mhz
    if c1.flag a F.CLK_CLUSTER_PROTECT then
      let cur := min mhz (c1.fld a F.CLK_CLUSTER_CUR_MHZ)
      (c1.setClock n cur).setFld a F.CLK_CLUSTER_PROTECT (b2n (decide (cur < mhz)))
    else c1.setClock n mhz

/-- Ungate a cluster island that is not fenced. -/
def Chip.ungate (c : Chip) (n : Nat) : Chip :=
  if c.cluFenced n then c else (c.rebase n).setFld (R.CLK_CLUSTER n) F.CLK_CLUSTER_GATED 0

/-- Gate a cluster island. -/
def Chip.gate (c : Chip) (n : Nat) : Chip := (c.rebase n).setFld (R.CLK_CLUSTER n) F.CLK_CLUSTER_GATED 1

/-- R209, R474: a die's copies of FIXLAT and KX880 and the pinning of its islands at the policy clock. -/
def Chip.setForce (c : Chip) (d fix kx : Nat) : Chip :=
  let a := R.FAB_CTRL d
  let c1 := c.setReg a (fput (fput (c.reg a) F.FAB_CTRL_FIXLAT fix) F.FAB_CTRL_KX880 kx)
  (clustersOfDie d).foldl (fun c n =>
    let c := c.setFld (R.CLK_CLUSTER n) F.CLK_CLUSTER_PINNED fix
    if fix = 1 ∧ c.fld (R.CLK_CLUSTER n) F.CLK_CLUSTER_BOOST = 1
    then c.setClock n (c.fld (R.CLK_CLUSTER n) F.CLK_CLUSTER_POLICY_MHZ) else c) c1

/-! ## Membership (R29-R33) -/

/-- R30: a die leaves its partition: clusters held and gated, stacks in self-refresh, Hedgehog stopped, copies cleared. -/
def Chip.unassignDie (c : Chip) (d : Nat) : Chip :=
  let c1 := (clustersOfDie d).foldl (fun c n =>
    let c := ((c.abandonResync n).clearIssue n).setFld (R.FOX_CTRL n) F.FOX_CTRL_HOLD 1
    let c := (c.setClu n { c.clu n with stop := .running }).holdCluster n
    (c.setFld (R.OWL_INJ n) F.OWL_INJ_ARMED 0).gate n) (c.setForce d 0 0)
  let c2 := [2 * d, 2 * d + 1].foldl (fun c s =>
    if c.fld (R.MEM_STAT s) F.MEM_STAT_PSTATE = 0 then c.setFld (R.MEM_STAT s) F.MEM_STAT_PSTATE 1 else c) c1
  c2.pauseHog d

/-- A die joins a partition: its islands and stacks run and its Hedgehog goes on (R337). -/
def Chip.assignDie (c : Chip) (d : Nat) : Chip :=
  let c1 := (clustersOfDie d).foldl Chip.ungate c
  let c2 := [2 * d, 2 * d + 1].foldl (fun c s =>
    if c.fld (R.MEM_STAT s) F.MEM_STAT_PSTATE = 1 then c.setFld (R.MEM_STAT s) F.MEM_STAT_PSTATE 0 else c) c1
  c2.hogRest d

/-- R31: is a pair of dies not neighbours on the ring? -/
def nonNeighbours (l : List Nat) : Bool := l == [0, 2] || l == [1, 3]

/-- R31: the checks of a request that defines or changes partition p. -/
def Chip.configBad (c : Chip) (p w : Nat) : Bool :=
  let dies := onesOf 4 (bits w 7 4)
  let share := ((List.range 4).map fun q =>
    if q = p then bits w 52 48 else if c.parEn q then c.fld (R.PAR_CTRL q) F.PAR_CTRL_BW_SHARE else 0).sum
  dies.isEmpty || nonNeighbours dies
    || (dies.any fun d => match c.partOf d with | some q => q != p | none => false)
    || decide (32 < share) || decide (12 * dies.length < bits w 29 24) || decide (96 * dies.length < bits w 40 32)

/-- The fields of PAR_CTRL that CMD_PART_CONFIG writes. -/
def ctrlFields (w : Nat) : Nat :=
  fat F.PAR_CTRL_EN 1 + fat F.PAR_CTRL_BW_SHARE (bits w 52 48) + fat F.PAR_CTRL_MIN_PAIRS (bits w 40 32)
    + fat F.PAR_CTRL_MIN_CLUSTERS (bits w 29 24) + fat F.PAR_CTRL_MAX_FENCED_PCH (bits w 19 16)
    + fat F.PAR_CTRL_KX880 (bits w 9 9) + fat F.PAR_CTRL_FIXLAT (bits w 8 8) + fat F.PAR_CTRL_DIES (bits w 7 4)

/-- CMD_PART_CONFIG with EN 0: the partition is removed and its dies become unassigned; its session closes (R461). Only
DEGRADED and TIMING_VOID, which reset alone clears, stay in PAR_STATUS. -/
def Chip.removePart (c : Chip) (m : Memory) (p : Nat) : Chip :=
  let dies := c.diesOf p
  let c1 := (c.closeSession p 4).discardJobs m (c.openHandles p) 0 0
  let st := c1.reg (R.PAR_STATUS p)
  let keep := fat F.PAR_STATUS_DEGRADED (fget st F.PAR_STATUS_DEGRADED)
    + fat F.PAR_STATUS_TIMING_VOID (fget st F.PAR_STATUS_TIMING_VOID)
  let c2 := dies.foldl Chip.unassignDie c1
  ((c2.setReg (R.PAR_CTRL p) 0#64).setReg (R.PAR_STATUS p) (wNat keep)).sync

/-- CMD_PART_CONFIG (R31, R32). DESIGN CHOICE (log 74): the checks of R31 judge a request that defines or changes a partition; one with EN 0
removes it whatever its other fields hold, and of a partition that is not enabled it is answered ST_OK and changes nothing. -/
def Chip.partConfig (c : Chip) (m : Memory) (cmd : Cmd) : Chip :=
  let p := cmd.part % 4
  let w := cmd.p 0
  let h := cmd.p 1
  if !bit w 60 then ((if c.parEn p then c.removePart m p else c).respond cmd St.ok [])
  else if c.configBad p w then c.respond cmd St.param []
  else
    let owner := if c.parEn p then c.owner p else cmd.chain
    let old := c.diesOf p
    let dies := onesOf 4 (bits w 7 4)
    let c1 := (old.filter fun d => !dies.contains d).foldl Chip.unassignDie c
    let c2 := c1.setReg (R.PAR_CTRL p)
      (wNat (ctrlFields w + fat F.PAR_CTRL_OWNER owner + fat F.PAR_CTRL_MODE_REQ (c.fld (R.PAR_CTRL p) F.PAR_CTRL_MODE_REQ)))
    let c3 := (dies.filter fun d => !old.contains d).foldl Chip.assignDie c2
    let c4 := dies.foldl (fun c d =>
      let a := R.HOG_CTRL d
      c.setReg a (fput (fput (fput (c.reg a) F.HOG_CTRL_LAP_LIMIT (bits h 47 32)) F.HOG_CTRL_PCH_SUSPECT (bits h 11 8))
        F.HOG_CTRL_THRESHOLD (bits h 2 0))) c3
    c4.sync.respond cmd St.ok []

/-! ## Transitions -/

/-- Step 7 of R47 for a transition of partition p to a mode (Table 2.2, Table 2.4, R358, R439, R471). -/
def Chip.transitionBad (c : Chip) (p target : Nat) : Option Nat :=
  let ctl := c.reg (R.PAR_CTRL p)
  if !c.parEn p then some St.param
  else if target = 0 ∨ 4 < target then some St.param
  else if isSafe target ∧ (fget ctl F.PAR_CTRL_MIN_PAIRS = 0 ∨ fget ctl F.PAR_CTRL_MIN_CLUSTERS = 0) then some St.param
  else if ((c.diesOf p).any fun d => c.dieFenced d) = true then some St.resource
  else if isSafe target ∧ ((c.diesOf p).any fun d => c.fld (R.HOG_CTRL d) F.HOG_CTRL_DRAM_EN == 0) = true then
    some St.resource
  else if 1 ≤ c.mode p ∧ c.mode p ≤ 3 ∧ (c.openHandles p).isEmpty = false then some St.busy
  else if c.mode p = 4 ∧ ((c.mgmt.long.any fun l => l.cmd.op == 0x40 && l.cmd.part == p)
      || (c.diesOf p).any fun d => c.flag (R.ECC_BP_CTRL d) F.ECC_BP_CTRL_EN) = true then some St.busy
  else none

/-- R45: start a transition: MODE_REQ and BUSY are set; a transition out of BOOT or MAINTENANCE first clears
SCR_RAW_CTRL.EN (R225). -/
def Chip.beginTransition (c : Chip) (cmd : Cmd) (target : Nat) : Chip :=
  let p := cmd.part % 4
  let c1 := if c.mode p = 0 ∨ c.mode p = 4 then
      (c.diesOf p).foldl (fun c d => c.setFld (R.SCR_RAW_CTRL d) F.SCR_RAW_CTRL_EN 0) c else c
  let c2 := (c1.setFld (R.PAR_CTRL p) F.PAR_CTRL_MODE_REQ target).setFld (R.PAR_STATUS p) F.PAR_STATUS_BUSY 1
  { c2 with mgmt := { c2.mgmt with trans := mset c2.mgmt.trans p ⟨some cmd, c.mode p, target, !isSafe target⟩ } }

/-- CMD_PART_START and CMD_PART_MODE after steps 1 to 6. -/
def Chip.transition (c : Chip) (cmd : Cmd) : Chip :=
  match c.transitionBad (cmd.part % 4) (cmd.p 0 % 8) with
  | some st => c.respond cmd st []
  | none => c.beginTransition cmd (cmd.p 0 % 8)

/-- Is any unit of a die fenced? -/
def Chip.anyFence (c : Chip) (d : Nat) : Bool :=
  (clustersOfDie d ++ (List.range 7).map (48 + 7 * d + ·)).any fun i => c.reg (R.FLT_FENCE i) != 0#64

/-- R303: the core of an abandoned resync becomes the cold spare; the two that carried on lead and trail. -/
def Chip.makeSpare (c : Chip) (n : Nat) (odd : Option Nat) : Chip :=
  match odd with
  | none => c
  | some k =>
    let rest := (List.range 3).filter fun j => j != k
    let c := c.setFld (R.OWL_CORE n k) F.OWL_CORE_ROLE 3
    let c := c.setFld (R.OWL_CORE n (rest.headD 0)) F.OWL_CORE_ROLE 1
    c.setFld (R.OWL_CORE n (rest.getLastD 0)) F.OWL_CORE_ROLE 2

/-- The partition reaches a mode: configuration of its clusters (Table 11.1), FIXLAT and KX880 (R209), injections (R319), the
heartbeat monitor (R43), the degraded condition (R38) and the discretes (R432). `odd` names the clusters whose resync R44 abandons, with the
core that becomes the cold spare (R303). -/
def Chip.reachMode (c : Chip) (p before target : Nat) (odd : List (Nat × Nat) := []) : Chip :=
  let ctl := c.reg (R.PAR_CTRL p)
  let inForce := target != 4
  let c1 := c.setFld (R.PAR_STATUS p) F.PAR_STATUS_MODE target
  let c2 := (c1.diesOf p).foldl (fun c d =>
    if inForce then c.setForce d (fget ctl F.PAR_CTRL_FIXLAT) (fget ctl F.PAR_CTRL_KX880) else c.setForce d 0 0) c1
  let c3 := if before = 4 then (c2.clustersOf p).foldl (fun c n => c.setFld (R.OWL_INJ n) F.OWL_INJ_ARMED 0) c2 else c2
  let c4 := (c3.clustersOf p).foldl (fun c n =>
    if (c.clu n).stop = .running then (((c.configure n target).makeSpare n (mget? odd n))).holdSpares n else c) c3
  let c5 := { c4 with mgmt := { c4.mgmt with started := true } }
  let c6 := if isSafe target && !c5.faults.hbArmed then
      { c5 with faults := { c5.faults with hbArmed := true }, pins := { c5.pins with hbAt := c5.now } } else c5
  let c7 := c6.sync
  let c8 := if isSafe target && (((c7.diesOf p).any c7.anyFence)
      || c7.flag (R.PAR_STATUS p) F.PAR_STATUS_TIMING_VOID) then c7.degrade p else c7
  c8.driveSafe

/-- Start the executive on every cluster of a partition that is not fenced; it loads the standard chains (R106). -/
def Chip.startPart (c : Chip) (p : Nat) : Chip :=
  ((c.clustersOf p).filter fun n => !c.cluFenced n).foldl (fun c n => (c.startExec n).loadStd n) c

/-- The stored words after the executive has started on a partition. -/
def startDens (c : Chip) (p : Nat) (m : Memory) : Memory :=
  ((c.clustersOf p).filter fun n => !c.cluFenced n).foldl (fun m n => clusterDens n m) m

/-- End of a transition that nothing holds: the self-test has passed and no resync of the partition runs (R303). Entry from
BOOT, and from MAINTENANCE, starts the executive. -/
def Chip.finishTransition (c : Chip) (m : Memory) (p : Nat) : Chip × Memory :=
  match mget? c.mgmt.trans p with
  | none => (c, m)
  | some t =>
    if !t.tested || (c.clustersOf p).any fun n => (c.clu n).resync.isSome then (c, m)
    else
      let c1 := c.reachMode p t.before t.target
      let start := t.before = 0 ∨ t.before = 4
      let c2 := if start then c1.startPart p else c1
      (c2.endTransition p 0 St.ok, if start then startDens c1 p m else m)

/-- Location code of a cluster. -/
def cluLoc (n : Nat) : Nat := n / 12 * 2 ^ 28 + n % 12 * 2 ^ 24 + 0xFFFFFF

/-- R318: the entry self-test forces one heartbeat on the Owl and on every pair signature unit of a cluster; the next one comes 4,096 decisions
later. -/
def Chip.forceBeats (c : Chip) (n : Nat) : Chip :=
  let cl := c.clu n
  let c1 := c.setClu n { cl with owlHb := cl.owlHb + 1,
                                 pairHb := (List.range 8).foldl (fun h k => mset h k (mget 0 h k + 1)) cl.pairHb }
  (List.range 8).foldl (fun c k => c.setFld (R.CMT_STAT (16 * n + 2 * k)) F.CMT_STAT_HB_PHASE 0)
    (c1.setFld (R.OWL_STAT n) F.OWL_STAT_HB_PHASE 0)

/-- R42: the entry self-test ends: every unit has beaten, failing clusters are fenced (source 0x28), the counts are compared with the limits, and
the entry completes unless a resync still runs (R303). -/
def Chip.entryTest (c : Chip) (m : Memory) (p : Nat) (fails : List Nat) : Chip × Memory :=
  match mget? c.mgmt.trans p with
  | none => (c, m)
  | some t =>
    if t.tested then (c, m)
    else
      let bad := fails.filter fun n => (c.clustersOf p).contains n && !c.cluFenced n
      let c := ((c.clustersOf p).filter fun n => !c.cluFenced n).foldl Chip.forceBeats c
      let c1 := bad.foldl (fun c n => c.detect m ⟨0x28, n, cluLoc n, 4, 0, [], 0, 0, false, false⟩) c
      let ctl := c1.reg (R.PAR_CTRL p)
      if c1.parClusters p < fget ctl F.PAR_CTRL_MIN_CLUSTERS ∨ c1.parPairs p < fget ctl F.PAR_CTRL_MIN_PAIRS
        ∨ fget ctl F.PAR_CTRL_MAX_FENCED_PCH < c1.parPch p then (c1.endTransition p 2 St.resource, m)
      else
        ({ c1 with mgmt := { c1.mgmt with trans := mset c1.mgmt.trans p { t with tested := true } } } : Chip).finishTransition
          m p

/-- R44: a debug open takes a SAFE partition to MAINTENANCE at once: its jobs are discarded with SOURCE 0, running resyncs
are abandoned and the core each one concerned becomes the cold spare (R303). -/
def Chip.forceMaint (c : Chip) (m : Memory) (p : Nat) : Chip :=
  let before := c.mode p
  let odd := (c.clustersOf p).filterMap fun n => (c.clu n).resync.map fun r => (n, r.odd)
  let c1 := c.discardJobs m (c.openHandles p) 0 0
  let c2 := odd.foldl (fun c e => c.abandonResync e.1) c1
  let c3 := (c2.setFld (R.PAR_CTRL p) F.PAR_CTRL_MODE_REQ 4).reachMode p before 4 odd
  c3.raise (111 + p) (before * 2 ^ 4 + 4)

/-! ## Meanings -/

/-- CMD_PART_CONFIG (R31, R32). -/
def execCmdPartConfig (c : Cmd) (s : State) : Out :=
  s.goChip (s.chip.serve 0x10 c fun x cmd => x.partConfig s.mem cmd)

/-- CMD_PART_START (R41, R42). -/
def execCmdPartStart (c : Cmd) (s : State) : Out := s.goChip (s.chip.serve 0x11 c Chip.transition)

/-- CMD_PART_MODE (R41, R42). -/
def execCmdPartMode (c : Cmd) (s : State) : Out := s.goChip (s.chip.serve 0x12 c Chip.transition)

/-- ENTRY_SELF_TEST (R42): `fails` are the clusters that fail. -/
def execEntrySelfTest (p : Fin 4) (fails : List (Fin 48)) (s : State) : Out :=
  let r := s.chip.entryTest s.mem p.val (fails.map fun n => n.val)
  s.goBoth r.1 r.2

/-- PART_TRANSITION_DONE (R41, R45). -/
def execPartTransitionDone (p : Fin 4) (s : State) : Out :=
  let r := s.chip.finishTransition s.mem p.val
  s.goBoth r.1 r.2

end Sys2Proof.Machine
end

