-- ==== Sys2Proof/Machine/MemCmd.lean ====
section
/-! DEFINITION. Machine/MemCmd.lean: memory transfers through hub DMA (R421, R422, R487) and the fill engine (R335). -/

namespace Sys2Proof.Machine

/-! ## Hub DMA transfers -/

/-- The index of the first word of the piece that holds word `i` of a transfer from address `a` (R193: pieces end at 256-byte
boundaries). -/
def pieceFirst (a i : Nat) : Nat := i - min i ((a + 8 * i) % 256 / 8)

/-- What a transfer leaves: the module, the stored words, the data read, and the failing index with its response. -/
structure Moved where
  chip : Chip
  mem : Memory
  data : List Word
  fail : Option (Nat × Resp)
  deriving DecidableEq, Repr

/-- The effect of a piece that is not answered OKAY: FAB_DEFERR for DEFAULT (R211), the record for UCE. -/
def Chip.badPiece (c : Chip) (m : Memory) (w : Who) (write : Bool) (addr : Nat) (r : Resp) (h : Option Hit)
    (jobs : List Nat) : Chip :=
  match r with
  | .default =>
    let die := match c.route w addr write with | .deflt d => d | _ => w.die
    c.deferr die w write addr
  | .uce => c.masterHit m h w.port jobs w.dma.isSome
  | _ => c

/-- Read `n` words in ascending address; after a failing piece nothing more is taken (R422). -/
def moveOut (c : Chip) (m : Memory) (w : Who) (a : Nat) : Nat → Nat → List Word → Moved
  | 0, _, acc => ⟨c, m, acc, none⟩
  | n + 1, i, acc =>
    let r := masterRead c m w (a + 8 * i)
    if r.resp = .okay then
      moveOut (c.masterHit m r.hit w.port [] w.dma.isSome) m w a n (i + 1) (acc ++ [wNat r.data])
    else
      let k := pieceFirst a i
      ⟨c.badPiece m w false (a + 8 * k) r.resp r.hit [], m, acc.take k, some (k, r.resp)⟩

/-- Write one word for a master: the stored words and the response. -/
def storeWord (c : Chip) (m : Memory) (w : Who) (a data : Nat) : Memory × Resp :=
  match c.route w a true with
  | .word key fold loc => (writeStored c m key fold loc data true, .okay)
  | .register _ => (m, .okay)
  | .deflt _ => (m, .default)
  | .abort => (m, .abort)

/-- The first word of a write that is not answered OKAY. -/
def writeFail (c : Chip) (w : Who) (a : Nat) : Nat → Nat → Option (Nat × Resp)
  | 0, _ => none
  | n + 1, i =>
    match c.route w (a + 8 * i) true with
    | .word _ _ _ | .register _ => writeFail c w a n (i + 1)
    | .deflt _ => some (i, .default)
    | .abort => some (i, .abort)

/-- Write words in ascending address. From index `stop` on, whether a word is performed is open (R422). -/
def writeWords (c : Chip) (w : Who) (a stop : Nat) : List Word → Nat → Memory → Memory
  | [], _, m => m
  | x :: r, i, m =>
    let doIt := decide (i < stop) || Config.freeBool (c.freeCtr + i)
    writeWords c w a stop r (i + 1) (if doIt then (storeWord c m w (a + 8 * i) x.toNat).1 else m)

/-- Write a list of words through a channel. -/
def moveIn (c : Chip) (m : Memory) (w : Who) (a : Nat) (data : List Word) : Moved :=
  match writeFail c w a data.length 0 with
  | none => ⟨c, writeWords c w a data.length data 0 m, [], none⟩
  | some (i, r) =>
    let k := pieceFirst a i
    ⟨(c.badPiece m w true (a + 8 * k) r none []).fresh, writeWords c w a k data 0 m, [], some (k, r)⟩

/-- R487: what a channel's registers hold after a transfer of `n` words from memory address `a`. -/
def Chip.dmaDone (c : Chip) (ch a n : Nat) (fail : Option (Nat × Resp)) : Chip :=
  let done := match fail with | some (k, _) => k | none => n
  let c1 := ((c.setReg (R.DMA_MADDR ch) (wNat ((a + 8 * done) % 2 ^ 48))).setReg (R.DMA_COUNT ch) (wNat (n - done))).setFld
    (R.DMA_STAT ch) F.DMA_STAT_BUSY 0
  match fail with
  | none => c1
  | some (k, r) =>
    let w := c1.reg (R.DMA_STAT ch)
    let w := fput (fput (fput w F.DMA_STAT_HALTED 1) F.DMA_STAT_RESP (respCode r)) F.DMA_STAT_FAIL_IDX k
    (c1.setReg (R.DMA_STAT ch) w).raise (239 + ch)

/-- Terind sets a channel up for a host command: tag, direction, address, count; its staging offset is open. -/
def Chip.dmaSetup (c : Chip) (ch p dir a n : Nat) : Chip :=
  let c1 := c.setReg (R.DMA_CTRL ch) (wNat (fat F.DMA_CTRL_PTAG p + fat F.DMA_CTRL_DIR dir))
  let c2 := (c1.setReg (R.DMA_MADDR ch) (wNat (a % 2 ^ 48))).setReg (R.DMA_COUNT ch) (wNat (n % 2 ^ 32))
  (c2.setReg (R.DMA_SADDR ch) (wNat (fat F.DMA_SADDR_OFFSET (Config.freeNat c.freeCtr)))).fresh

/-- Terind clears HALTED of the channel once it has reported the failure (R487). -/
def Chip.dmaClear (c : Chip) (ch : Nat) : Chip := c.setFld (R.DMA_STAT ch) F.DMA_STAT_HALTED 0

/-- CMD_MEM_WRITE once its checks stand (R422). -/
def memWrite (c : Chip) (m : Memory) (cmd : Cmd) : Chip × Memory :=
  let p := cmd.part % 4
  let a := cmd.p 0
  let data := cmd.params.drop 2
  let ch := (c.freeChannel cmd.chain).getD 0
  let c1 := c.dmaSetup ch p 0 a data.length
  let r : Moved := if c1.faults.halted then ⟨c1.fresh, m, [], some (0, .abort)⟩
    else moveIn c1 m (dmaWho ch p false) a data
  let c2 := (r.chip.dmaDone ch a data.length r.fail).dmaClear ch
  match r.fail with
  | none => (c2.respond cmd St.ok [], r.mem)
  | some (k, x) => (c2.respond cmd St.memory [wNat k, wNat (respCode x)], r.mem)

/-- Serve CMD_MEM_WRITE: the check made when its address and count arrived stands (R408); otherwise it is made now. -/
def serveMemWrite (c : Chip) (m : Memory) (cmd0 : Cmd) : Chip × Memory :=
  let cmd := { cmd0 with op := 0x30, chain := cmd0.chain % 2 }
  let t := c.turn cmd
  if !t.2 then (t.1, m)
  else
    let st := if c.earlyPassed cmd then none else (c.check 0x30 cmd).orElse fun _ => c.memWriteCheck cmd
    match st with
    | some x => (t.1.respond cmd x [], m)
    | none => memWrite t.1 m cmd

/-- The trailer of CMD_MEM_READ (R422). -/
def readTrailer (n : Nat) (fail : Option (Nat × Resp)) : Word :=
  match fail with
  | none => wNat (0xB * 2 ^ 60 + n % 2 ^ 40)
  | some (k, r) => wNat (0xB * 2 ^ 60 + St.memory * 2 ^ 48 + respCode r * 2 ^ 40 + k % 2 ^ 40)

/-- CMD_MEM_READ after its checks. -/
def Chip.memRead (c : Chip) (m : Memory) (cmd : Cmd) : Chip :=
  let p := cmd.part % 4
  let a := cmd.p 0
  let n := cmd.p 1
  let ch := (c.freeChannel cmd.chain).getD 0
  let r := moveOut (c.dmaSetup ch p 1 a n) m (dmaWho ch p false) a n 0 []
  let c2 := (r.chip.dmaDone ch a n r.fail).dmaClear ch
  c2.respond cmd St.ok (r.data ++ List.replicate (n - r.data.length) 0#64 ++ [readTrailer n r.fail])

/-- Serve CMD_MEM_READ. -/
def Chip.serveMemRead (c : Chip) (m : Memory) (cmd : Cmd) : Chip :=
  c.serve 0x31 cmd fun x k =>
    if x.memReadBad k then x.respond k St.param [] else x.memRead m k

/-! ## Fills -/

/-- R413: does a fill, substitution or built-in test of the partition run? -/
def Chip.longRuns (c : Chip) (p : Nat) : Bool :=
  c.mgmt.long.any fun l => l.cmd.part % 4 == p && [0x32, 0x34, 0x40].contains l.cmd.op

/-- CMD_MEM_FILL: its checks and its start (R335, R413, R418). -/
def Chip.memFillStart (c : Chip) (cmd : Cmd) : Chip :=
  let p := cmd.part % 4
  let lo := cmd.p 0
  let n := cmd.p 1
  if lo % 64 ≠ 0 ∨ n = 0 ∨ n % 8 ≠ 0 ∨ c.memArea p lo (8 * n) 0x05E00000 = false then c.respond cmd St.param []
  else if c.longRuns p then c.respond cmd St.busy []
  else
    let d := if lo < 2 ^ 46 then lo / 2 ^ 36 else (lo - 0x400000000000) / 0x10000000
    { c with mgmt := { c.mgmt with long := c.mgmt.long ++ [⟨cmd, d, lo, lo + 8 * n⟩] } }

/-- The fill engine writes one word: retired pages and the granules of a channel that serves nothing are passed over. -/
def fillWord (c : Chip) (m : Memory) (a data : Nat) : Memory :=
  match locate a with
  | .dram d off =>
    if c.pageRetired d (off / 65536) then m
    else match c.physOf d (chanOf off) with
      | some n => writeStored c m (dramKey d n (localOf off) (off % 64)) (off / 8) (.dram d off) data true
      | none => m
  | .scratch d off => writeStored c m (0x400000000000 + d * 0x10000000 + off) (off / 8) (.scratch d off) data true
  | _ => m

/-- The fill engine writes `n` words from address `a` on. -/
def fillWords (c : Chip) (a data : Nat) : Nat → Memory → Memory
  | 0, m => m
  | n + 1, m => fillWord c (fillWords c a data n m) (a + 8 * n) data

/-- R337: DRAM_EN has been set, which ends the interval of R334: the next lap starts from offset 0. -/
def Chip.startLap (c : Chip) (d : Nat) : Chip :=
  let c1 := c.setDom d { c.dom d with lapStart := c.now, lapLate := false, written := true }
  ((c1.setFld (R.HOG_LAP d) F.HOG_LAP_POS 0).setFld (R.HOG_STAT d) F.HOG_STAT_IN_SCRATCH 0).hogRest d

/-- A fill ends: a whole domain sets DRAM_EN, which ends the interval of R334, and the next lap starts from offset 0; a whole
kernel data area sets SCR_EN (R335, R337). -/
def Chip.fillEnd (c : Chip) (l : LongCmd) : Chip :=
  let d := l.die
  if l.lo = d * 2 ^ 36 ∧ l.hi = d * 2 ^ 36 + 0xB70000000 then
    let c1 := c.setFld (R.HOG_CTRL d) F.HOG_CTRL_DRAM_EN 1
    if c.flag (R.HOG_CTRL d) F.HOG_CTRL_DRAM_EN then c1 else c1.startLap d
  else if l.lo = 0x400000000000 + d * 0x10000000 ∧ l.hi = l.lo + 0x05E00000 then
    c.setFld (R.HOG_CTRL d) F.HOG_CTRL_SCR_EN 1
  else c

/-- A long command leaves the list of those that run. -/
def Chip.endLong (c : Chip) (cmd : Cmd) : Chip :=
  { c with mgmt := { c.mgmt with long := dropFirst (fun l => l.cmd == cmd) c.mgmt.long } }

/-- The fill that runs in a partition. -/
def Chip.fillOf (c : Chip) (p : Nat) : Option LongCmd :=
  c.mgmt.long.find? fun l => l.cmd.op == 0x32 && l.cmd.part % 4 == p

/-! ## Meanings -/

/-- CMD_MEM_WRITE (R408, R421, R422). -/
def execCmdMemWrite (c : Cmd) (s : State) : Out :=
  let r := serveMemWrite s.chip s.mem c
  s.goBoth r.1 r.2

/-- CMD_MEM_READ (R421, R422). -/
def execCmdMemRead (c : Cmd) (s : State) : Out := s.goChip (s.chip.serveMemRead s.mem c)

/-- CMD_MEM_FILL (R335, R413). -/
def execCmdMemFill (c : Cmd) (s : State) : Out := s.goChip (s.chip.serve 0x32 c Chip.memFillStart)

/-- FILL_COMPLETE (R335): the words of the fill are written and the command is answered. -/
def execFillComplete (p : Fin 4) (s : State) : Out :=
  match s.chip.fillOf p.val with
  | none => .next s
  | some l =>
    let m := fillWords s.chip l.lo (l.cmd.p 2) ((l.hi - l.lo) / 8) s.mem
    s.goBoth (((s.chip.endLong l.cmd).fillEnd l).respond l.cmd St.ok []) m

end Sys2Proof.Machine
end

