-- ==== Sys2Proof/Machine/StreamDesc.lean ====
section
/-! DEFINITION. Machine/StreamDesc.lean: the stream descriptor (R59-R61, Tables 3.3 to 3.5), its ranges (R63), the checks at
issue (R64, R65, R69, Table 3.6). -/

namespace Sys2Proof.Machine

/-- A descriptor with the chain table entry that it names. -/
structure StreamView where
  w : List Nat
  ce : ChainEntry
  deriving DecidableEq, Repr

/-- The stream of an issue slot. -/
def Slot.view (x : Slot) : StreamView := ⟨x.desc.map BitVec.toNat, ⟨x.hdr, x.nodes, x.consts⟩⟩

/-! ## Fields of word 0 (Table 3.3) -/

/-- Word k of a descriptor. -/
def StreamView.word (v : StreamView) (k : Nat) : Nat := v.w.getD k 0

/-- CHAIN. -/
def StreamView.chain (v : StreamView) : Nat := bits (v.word 0) 63 58

/-- ETYPE. -/
def StreamView.et (v : StreamView) : Nat := bits (v.word 0) 57 54

/-- RMODE. -/
def StreamView.rm (v : StreamView) : Nat := bits (v.word 0) 53 52

/-- FTZ. -/
def StreamView.ftz (v : StreamView) : Bool := bit (v.word 0) 51

/-- PRECISE. -/
def StreamView.precise (v : StreamView) : Bool := bit (v.word 0) 50

/-- XUSE for word 6, YUSE for word 7. -/
def StreamView.auxUse (v : StreamView) (k : Nat) : Nat := if k = 6 then bits (v.word 0) 47 45 else bits (v.word 0) 44 42

/-- Number of elements. -/
def StreamView.n (v : StreamView) : Nat := v.word 0 % 2 ^ 40 + 1

/-- Number of blocks (R72). -/
def StreamView.blocks (v : StreamView) : Nat := (v.n + 511) / 512

/-! ## Operand and auxiliary words (R60, R61) -/

/-- BASE of a word. -/
def opBase (w : Nat) : Nat := w % 2 ^ 48

/-- STRIDE of a word. -/
def opStride (w : Nat) : Int := sx 16 (w / 2 ^ 48)

/-- The declared extent of an indexed slot. -/
def opExtent (w : Nat) : Nat := (w / 2 ^ 48 % 4096 + 1) * 4 ^ (w / 2 ^ 60 % 16)

/-- Does the chain use slot `s` (0 A, 1 B, 2 C, 3 D0, 4 D1)? -/
def StreamView.uses (v : StreamView) (s : Nat) : Bool := if s < 3 then v.ce.usesSlot s else v.ce.destEn (s - 3)

/-- The slots that the chain uses. -/
def StreamView.slots (v : StreamView) : List Nat := (List.range 5).filter v.uses

/-- Element type of a slot. -/
def StreamView.slotTy (v : StreamView) (s : Nat) : Nat := if s < 3 then v.et else v.ce.nodeTy (v.ce.destNode (s - 3)) v.et

/-- Operand word of a slot. -/
def StreamView.op (v : StreamView) (s : Nat) : Nat := v.word (s + 1)

/-- The auxiliary word that supplies the index stream of a slot. -/
def StreamView.index (v : StreamView) (s : Nat) : Option Nat := [6, 7].find? fun k => v.auxUse k == s + 2

/-- The auxiliary word that is the mask stream. -/
def StreamView.mask (v : StreamView) : Option Nat := [6, 7].find? fun k => v.auxUse k == 1

/-- The auxiliary words in use. -/
def StreamView.auxs (v : StreamView) : List Nat := [6, 7].filter fun k => v.auxUse k != 0

/-- Element size of an auxiliary word. -/
def StreamView.auxSize (v : StreamView) (k : Nat) : Nat := if v.auxUse k = 1 then 1 else if bit (v.word 0) 49 then 8 else 4

/-- Does a destination receive a single element (R102)? -/
def StreamView.single (v : StreamView) (s : Nat) : Bool := decide (3 ≤ s) && v.ce.destReduces (s - 3)

/-- Elements of a slot. -/
def StreamView.count (v : StreamView) (s : Nat) : Nat := if v.single s then 1 else v.n

/-! ## Ranges (R63) -/

/-- The exact span of a strided word: first byte and end. -/
def stridedRange (w size n : Nat) : Int × Int :=
  let st := opStride w
  let b : Int := opBase w
  if 0 ≤ st then (b, b + (((n : Int) - 1) * st + 1) * size) else (b + ((n : Int) - 1) * st * size, b + size)

/-- The exact span of a slot. -/
def StreamView.slotRange (v : StreamView) (s : Nat) : Int × Int :=
  let size := tySize (v.slotTy s)
  match v.index s with
  | some _ => (opBase (v.op s), (opBase (v.op s) + opExtent (v.op s) * size : Nat))
  | none => stridedRange (v.op s) size (v.count s)

/-- The exact span of an auxiliary word. -/
def StreamView.auxRange (v : StreamView) (k : Nat) : Int × Int := stridedRange (v.word k) (v.auxSize k) v.n

/-- A span rounded outward to granules. -/
def spanOf (r : Int × Int) : Span := ⟨r.1.toNat / 64 * 64, (r.2.toNat + 63) / 64 * 64⟩

/-- Exact read ranges: sources, then auxiliary words. -/
def StreamView.reads (v : StreamView) : List (Int × Int) :=
  ((v.slots.filter fun s => decide (s < 3)).map v.slotRange) ++ v.auxs.map v.auxRange

/-- Exact write ranges. -/
def StreamView.writes (v : StreamView) : List (Int × Int) := (v.slots.filter fun s => decide (3 ≤ s)).map v.slotRange

/-- R77: the read hull. -/
def StreamView.hull (v : StreamView) : Option Span :=
  match v.reads.map spanOf with
  | [] => none
  | a :: r => some (r.foldl (fun h x => ⟨min h.lo x.lo, max h.hi x.hi⟩) a)

/-! ## Checks at issue (Table 3.6) -/

/-- Cause 0x04. -/
def StreamView.auxBad (v : StreamView) : Bool :=
  let x := v.auxUse 6
  let y := v.auxUse 7
  x == 7 || y == 7 || (x == y && x != 0)
    || [x, y].any fun u => decide (2 ≤ u) && !v.uses (u - 2)

/-- R65: exact in-place use of a source and a destination. -/
def StreamView.inPlace (v : StreamView) (s d : Nat) : Bool :=
  (v.index s).isNone && (v.index d).isNone && opBase (v.op s) == opBase (v.op d) && opStride (v.op s) == opStride (v.op d)
    && tySize (v.slotTy s) == tySize (v.slotTy d)

/-- Cause 0x0A: a destination overlaps a read range other than in place. -/
def StreamView.overlapBad (v : StreamView) : Bool :=
  (v.slots.filter fun d => decide (3 ≤ d)).any fun d =>
    let dw := spanOf (v.slotRange d)
    ((v.slots.filter fun s => decide (s < 3)).any fun s => dw.meets (spanOf (v.slotRange s)) && !v.inPlace s d)
      || v.auxs.any fun k => dw.meets (spanOf (v.auxRange k))

/-- Range instance i of a cluster, if valid: OUT and span. -/
def Chip.rangeInst (c : Chip) (n i : Nat) : Option (Bool × Span) :=
  let lo := c.reg (R.AGU_RNG_LO n i)
  if fget lo F.AGU_RNG_LO_VALID = 1 then
    some (fget lo F.AGU_RNG_LO_OUT == 1,
      ⟨fget lo F.AGU_RNG_LO_BASE * 64, c.fld (R.AGU_RNG_HI n i) F.AGU_RNG_HI_LAST * 64 + 64⟩)
  else none

/-- The valid range instances of a cluster. -/
def Chip.rangeInsts (c : Chip) (n : Nat) : List (Bool × Span) := (List.range 32).filterMap (c.rangeInst n)

/-- A span lies wholly within another. -/
def Span.within (a b : Span) : Bool := decide (b.lo ≤ a.lo) && decide (a.hi ≤ b.hi)

/-- R69: cause 0x0B. -/
def Chip.readOutside (c : Chip) (n : Nat) (v : StreamView) : Bool :=
  let l := c.rangeInsts n
  v.reads.any fun r => !l.any fun i => (spanOf r).within i.2

/-- R69: cause 0x0C. -/
def Chip.writeOutside (c : Chip) (n : Nat) (v : StreamView) : Bool :=
  let l := c.rangeInsts n
  v.writes.any fun r =>
    (!l.any fun i => i.1 && (spanOf r).within i.2) || l.any fun i => !i.1 && (spanOf r).meets i.2

/-- R64: the lowest cause for which the issue unit refuses a descriptor. -/
def Chip.refusal (c : Chip) (n : Nat) (v : StreamView) : Option Nat :=
  let w := v.word 0
  let ctrl := c.readReg (R.AGU_CTRL n)
  let chk := fget ctrl F.AGU_CTRL_RNG_EN == 1
  let spans := v.reads ++ v.writes
  if bits w 41 40 ≠ 0 then some 0x01
  else if v.et = 3 ∨ 12 ≤ v.et then some 0x02
  else if fget v.ce.hdr F.TIL_CHAIN_HDR_VALID = 0 ∨ v.ce.accepts v.et = false then some 0x03
  else if v.auxBad then some 0x04
  else if [3, 4].any fun d => (v.index d).isSome && v.single d then some 0x05
  else if (v.slots.any fun s => opBase (v.op s) % tySize (v.slotTy s) != 0)
      || v.auxs.any fun k => opBase (v.word k) % v.auxSize k != 0 then some 0x06
  else if spans.any fun r => decide (r.1 < 0) || decide ((2 ^ 48 : Nat) < r.2) then some 0x07
  else if [3, 4].any fun d => v.uses d && (v.index d).isNone && decide (1 < v.count d) && opStride (v.op d) == 0 then
    some 0x08
  else if v.uses 3 && v.uses 4 && (spanOf (v.slotRange 3)).meets (spanOf (v.slotRange 4)) then some 0x09
  else if v.overlapBad then some 0x0A
  else if chk && c.readOutside n v then some 0x0B
  else if chk && c.writeOutside n v then some 0x0C
  else if fget ctrl F.AGU_CTRL_ISSUE_EN = 0 then some 0x0D
  else none

end Sys2Proof.Machine
end

