-- ==== Sys2Proof/Machine/Jobs.lean ====
section
/-! DEFINITION. Machine/Jobs.lean: what the Fox executive does for jobs (R50-R53, R66-R68, R85, R104-R106, R242, R245) and
how their ends are posted (R23, R364, R411, R414, R419). The executive's own instruction words are not the manual's, so
each of its services is one step. -/

namespace Sys2Proof.Machine

/-! ## Clusters that can take a job -/

/-- The cores of a cluster with a part in its configuration, ascending. -/
def Chip.members (c : Chip) (n : Nat) : List Nat :=
  (List.range 3).filter fun k => c.fld (R.OWL_CORE n k) F.OWL_CORE_ROLE != 3 && !c.coreFenced n k

/-- Does a core execute? -/
def Core.alive (x : Core) : Bool := x.run == .executing || x.run == .stalled

/-- May the executive give the cluster a job (R50, R305): in service, idle, its cores running, not stopped and not in a
debug halt (R455)? -/
def Chip.idle (c : Chip) (n : Nat) : Bool :=
  let cfg := c.fld (R.OWL_STAT n) F.OWL_STAT_CONFIG
  c.cluInService n && (c.clu n).job.isNone && (c.clu n).haltAt.isNone && (c.clu n).stop == .running
    && decide (1 ≤ cfg) && decide (cfg ≤ 3)
    && !(c.members n).isEmpty && (c.members n).all fun k => (c.core (3 * n + k)).alive

/-! ## Checks at a job's start -/

/-- The first job of a partition that waits (R50). -/
def Chip.nextQueued (c : Chip) (p : Nat) : Option Job := c.openJobs.find? fun j => j.part == p && !j.started

/-- Retired pages of a die, in effect or pending, that a range touches. -/
def Chip.pagesIn (c : Chip) (r : Range) (pend : Bool) : Bool :=
  (List.range 4).any fun d => (c.dom d).retire.any fun e =>
    e.2.2 == pend && r.overlaps ⟨false, d * 2 ^ 36 + e.2.1 * 65536, 65536⟩

/-- R66, R181, R188: does a declared range lie in populated memory of the partition? -/
def Chip.rangePopulated (c : Chip) (p : Nat) (safe : Bool) (r : Range) : Bool :=
  c.memArea p r.base r.len 0x05E00000
    && !(safe && (c.pagesIn r false || (decide (r.base < 2 ^ 38) && !(c.fencedPch (r.base / 2 ^ 36)).isEmpty)))

/-- Does [lo, lo + n) lie within an input range? -/
def inInput (l : List Range) (lo n : Nat) : Bool :=
  l.any fun r => !r.out && decide (r.base ≤ lo) && decide (lo + n ≤ r.base + r.len)

/-- R66, R67: the range checks of a job's start. -/
def Chip.rangesOk (c : Chip) (p : Nat) (j : Job) (h : BlockHead) (l : List Range) : Bool :=
  let safe := c.safePart p
  (l.all (c.rangePopulated p safe))
    && (!safe ||
      ((l.all fun a => l.all fun b => a.out || !b.out || !a.overlaps b)
        && inInput l j.pblock (8 + 16 * l.length + 8 * h.pwords) && inInput l j.entry 4
        && c.openJobs.all fun k => !(k.part == p && k.started)
          || l.all fun a => k.ranges.all fun b => !(a.out || b.out) || !a.overlaps b))

/-- R421: the host's memory writes of a partition that are in progress: the checked ones whose data still flow or wait. -/
def Chip.writesFlowing (c : Chip) (p : Nat) : List Range :=
  (c.queues.waiting.filter fun e => e.passed && queueOf e.cmd == p).map fun e => ⟨true, e.cmd.p 0, 8 * e.cmd.p 1⟩

/-! ## Start (R52, R68, R106, R242, R244, R245) -/

/-- A core as the executive starts a kernel on it: user mode at the entry point, in a new context 1 (DESIGN CHOICE: the
manual's worked example names context 1), with empty caches and fetch queue. -/
def kernelCore (x : Core) (entry pb rank n h top : Nat) : Core :=
  let g : Vector Word 16 :=
    (((((Vector.replicate 16 0#64).set 0 (wNat pb)).set 1 (wNat rank)).set 2 (wNat n)).set 3 (wNat h)).set 15 (wNat top)
  { x with run := .executing, pc := entry % 2 ^ 48, sup := false, exc := false, cur := 1,
           banks := mset x.banks 1 { freshBank 1 with g := g }, live := [0, 1], resident := [1, 0], spill := none,
           pendCur := none, erec := [], critEnd := none, escActive := false, win := {}, closed := none, issue := none,
           dcache := [], icache := [], fetchq := [], stm := none, due := [], pwait := none }

/-- Top of the data stack of a cluster (R52, Table 8.2). -/
def stackTop (n : Nat) : Nat := 0x4000_05E0_0000 + n / 12 * 0x10000000 + n % 12 * 0x10000 + 0x10000

/-- R68: the issue unit of a cluster of a SAFE job: the declared ranges, the stack in number 31, the checks on. In
THROUGHPUT the checks stay off (R67). -/
def Chip.loadRanges (c : Chip) (n : Nat) (safe : Bool) (l : List Range) : Chip :=
  let put := fun (c : Chip) (i lo hi : Nat) => (c.setReg (R.AGU_RNG_LO n i) (wNat lo)).setReg (R.AGU_RNG_HI n i) (wNat hi)
  let c := (List.range 32).foldl (fun c i => put c i 0 0) c
  let c := if safe then
      let c := (l.zip (List.range 31)).foldl (fun c r =>
        put c r.2 (fat F.AGU_RNG_LO_VALID 1 + fat F.AGU_RNG_LO_OUT (b2n r.1.out) + r.1.base % 2 ^ 48)
          ((r.1.base + r.1.len - 64) % 2 ^ 48)) c
      put c 31 (fat F.AGU_RNG_LO_VALID 1 + fat F.AGU_RNG_LO_OUT 1 + (stackTop n - 0x10000)) (stackTop n - 64)
    else c
  let chk := b2n safe
  c.setReg (R.AGU_CTRL n)
    (wNat (fat F.AGU_CTRL_ISSUE_EN 1 + fat F.AGU_CTRL_RNG_EN chk + fat F.AGU_CTRL_STORE_CHK chk))

/-- Start the kernel of a job on one of its clusters. -/
def Chip.startKernel (c : Chip) (j : Job) (n rank count : Nat) (l : List Range) (safe : Bool) : Chip :=
  let c1 := (c.clearChains n).loadRanges n safe l
  let c2 := c1.setClu n { c1.clu n with job := some j.handle, rank := rank, inBarrier := false, barrierOpen := false, returned := false,
                                        retG0 := 0#64 }
  (c2.members n).foldl (fun c k =>
    c.setCore (3 * n + k) (kernelCore (c.core (3 * n + k)) j.entry j.pblock rank count j.handle (stackTop n))) c2

/-- R242: zeros in the first 32 KiB of the Den of every core of a cluster. -/
def zeroDens (n : Nat) (m : Memory) : Memory :=
  (List.range 3).foldl (fun m k => memFill (fun _ => 0) (denBase (3 * n + k)) 0 0x1000 m) m

/-- Start a job on clusters `cls`, the rank rising with the list. -/
def startJob (c : Chip) (m : Memory) (j : Job) (cls : List Nat) (l : List Range) (safe : Bool) : Chip × Memory :=
  let c1 := c.mapJob j.handle fun j => { j with started := true, startCycle := c.hubCycle, clusters := cls, ranges := l }
  ((cls.zip (List.range cls.length)).foldl (fun c e => c.startKernel j e.1 e.2 cls.length l safe) c1,
   cls.foldl (fun m n => zeroDens n m) m)

/-- JOB_START: the executive of a partition takes its first waiting job: it starts, ends without running, or waits. -/
def jobStart (c : Chip) (m : Memory) (p : Nat) : Chip × Memory :=
  match c.nextQueued p with
  | none => (c, m)
  | some j =>
    if c.faults.halted || c.mode p == 0 || decide (3 < c.mode p) then (c, m)
    else
      let w := c.execWho p
      match readBlock c m w j.pblock with
      | .answered .default _ => (c.endJob m j.handle St.range 0#64 0#64, m)
      | .answered .uce h => (c.masterHit m h w.port [j.handle] false, m)
      | .answered _ _ => (c.discardJobs m [j.handle] c.faults.linkCause.1 c.faults.linkCause.2, m)
      | .broken => (c.endJob m j.handle St.param 0#64 0#64, m)
      | .good h l =>
        let svc := (c.clustersOf p).filter c.cluInService
        let n := if h.clusters = 0 then svc.length else h.clusters
        let free := svc.filter c.idle
        let safe := c.safePart p
        if n = 0 ∨ svc.length < n then (c.endJob m j.handle St.resource 0#64 0#64, m)
        else if safe && ((l.any fun r => c.pagesIn r true)
            || (c.writesFlowing p).any fun x => l.any x.overlaps) then (c, m)
        else if free.length < n then (c, m)
        else if !c.rangesOk p j h l then (c.endJob m j.handle St.range 0#64 0#64, m)
        else startJob c m j (free.take n) l safe

/-! ## Completion -/

/-- R89: an unconsumed PRECISE fault of a cluster: its status word. -/
def Chip.unconsumed (c : Chip) (n : Nat) : Option Word :=
  ((c.clu n).slots.find? fun e =>
    e.2.state == .retired && e.2.view.precise && decide (0x21 ≤ e.2.cause) && decide (e.2.cause ≤ 0x24) && !e.2.consumed).map
    fun e => wNat (e.2.cause * 2 ^ 56 + (e.2.gen * 64 + e.1) * 2 ^ 40 + e.2.pos)

/-- JOB_COMPLETE (R53, R89): every cluster has returned and every stream has retired. -/
def Chip.jobComplete (c : Chip) (m : Memory) (h : Nat) : Chip :=
  match c.job h with
  | none => c
  | some j =>
    if !j.started || j.ended.isSome || j.clusters.any fun n =>
        !(c.clu n).returned || (c.clu n).slots.any fun e => e.2.inFlight then c
    else match j.clusters.findSome? c.unconsumed with
      | some w => c.endJob m h St.streamFault w 0#64
      | none => c.endJob m h St.ok ((c.clu (j.clusters.headD 0)).retG0) 0#64

/-- Can a write of the job still reach memory: a piece of it is not yet answered, or a store of its kernel has been released and not yet
answered (R23, R364)? -/
def Chip.jobFlows (c : Chip) (h : Nat) : Bool :=
  (c.fabric.out.any fun o => o.piece.job == some h && o.answer.isNone)
    || c.cores.any fun e => e.2.released.any fun b => b.job == some h

/-- R411: a completed handle joins the lists of both chains, at most 4,096 each. -/
def Chip.noteDone (c : Chip) (p h : Nat) : Chip :=
  [0, 1].foldl (fun c ch =>
    let k := doneKey p ch
    let x : DoneList := mget {} c.mgmt.done k
    let l := x.handles ++ [h]
    let y := if 4096 < l.length then { x with handles := l.drop 1, dropped := true } else { x with handles := l }
    { c with mgmt := { c.mgmt with done := mset c.mgmt.done k y } }) c

/-- Table 15.7: the completion data of a job that has ended. -/
def Chip.doneWords (c : Chip) (j : Job) (e : JobEnd) : List Word :=
  [wNat j.handle, e.word1, e.word2, wNat j.startCycle, wNat c.hubCycle]

/-- A redundancy run answers its CMD_BIST with its completion record, OWL_INJ and OWL_STAT (Table 15.6); its cluster
takes the configuration of the mode again. -/
def Chip.bistEnd (c : Chip) (j : Job) (e : JobEnd) : Chip :=
  let n := j.clusters.headD 0
  let c1 := if (c.clu n).stop = .running ∧ c.cluFenced n = false then c.configure n (c.dieMode (n / 12)) else c
  match c.mgmt.long.find? fun l => l.cmd.op == 0x40 && l.lo == j.handle with
  | none => c1
  | some l =>
    ({ c1 with mgmt := { c1.mgmt with long := dropFirst (fun x => x == l) c1.mgmt.long } } : Chip).respond l.cmd e.status
      (c.doneWords j e ++ [c.reg (R.OWL_INJ n), c.readReg (R.OWL_STAT n)])

/-- Post the completion of an ended job to the owner chain (R414, R419), with its event EV005. -/
def Chip.postJob (c : Chip) (j : Job) (e : JobEnd) : Chip :=
  let c1 := { c with mgmt := { c.mgmt with jobs := c.mgmt.jobs.filter fun k => k.handle != j.handle } }
  if j.bist then c1.bistEnd j e
  else
    let ch := c.owner j.part
    let b := (c1.mbx ch).post 1 e.status j.tag 0x20 j.part (c1.rspWord1 j.cseq false false j.part) (c1.doneWords j e)
    ((c1.setMbx ch b).postEvent ch 5 j.part true j.handle).noteDone j.part j.handle

/-- Post the end of a job whose status lies in `sts` once none of its writes can reach memory (R23, R364). -/
def Chip.postEnded (c : Chip) (h : Nat) (discarded : Bool) : Chip :=
  match c.job h with
  | none => c
  | some j => match j.ended with
    | none => c
    | some e =>
      let isDisc := e.status == St.discarded || e.status == St.aborted
      if isDisc != discarded || c.jobFlows h || c.badger.restarting then c else c.postJob j e

/-! ## Calls (R85, R104) -/

/-- The frame address of the exception that a core's handler serves: G14 of the exception bank. -/
def Core.frame (x : Core) : Nat := ((x.bankOf 0xF).g.get 14).toNat

/-- Has a core entered the handler for supervisor call `k` and not yet returned? -/
def Core.inCall (x : Core) (k : Nat) : Bool := x.exc && !x.escActive && x.cause == 0x0C && x.eaddr == wNat k

/-- The lead core of a cluster: its first member. -/
def Chip.leadOf (c : Chip) (n : Nat) : Nat := 3 * n + (c.members n).headD 0

/-- A core of a cluster as its instructions see the module. -/
def envOf (c : Chip) (n k : Nat) : Env := { chip := c, key := 3 * n + k, cl := some n }

/-- Read `n` words with a core's loads: the words, or the response that ended them, with the effects. -/
def callRead (e : Env) (x : Core) (m : Memory) (a : Nat) : Nat → Nat → List Word → List Word × Resp × List Eff
  | 0, _, acc => (acc, .okay, [])
  | n + 1, i, acc =>
    let r := loadWord e x m (a + 8 * i) 8
    if r.1 = .okay then
      let t := callRead e x m a n (i + 1) (acc ++ [wNat r.2.1])
      (t.1, t.2.1, r.2.2 ++ t.2.2)
    else (acc, r.1, r.2.2)

/-- Does every one of the 13 words at `a` lie in a Den of the partition: the core's own through the alias of R242, or a Den window of one
of its clusters (R20, R29)? -/
def Chip.inDens (c : Chip) (e : Env) (p a : Nat) : Bool :=
  (List.range 13).all fun i => (e.denOff (a + 8 * i)).isSome || match locate (a + 8 * i) with
    | .den k _ => decide (k < 144) && (c.clustersOf p).contains (k / 3)
    | _ => false

/-- R104, R105: where a chain record may lie: in SAFE an input range; in THROUGHPUT the memory, the scratch and the Dens of the job's
partition. DESIGN CHOICE (log 70): a record in register space lies outside the partition (code 3). -/
def Chip.recordPlace (c : Chip) (e : Env) (j : Job) (a : Nat) : Bool :=
  if c.safePart j.part then inInput j.ranges a 104 else c.memArea j.part a 104 0x06000000 || c.inDens e j.part a

/-- The bits of a chain header that it holds (Table 4.5): bit 3 of TYPES and the reserved bits read 0. -/
def hdrBits : Word := 0xFFF7EFF000000000#64

/-- The bits of a node word that it holds (Table 4.6). -/
def nodeBits : Word := 0xFFFFFFF800000000#64

/-- The answer of the chain-load call: a code of Table 4.8, or none when a read ended the job, with its effects and the
entry to write. -/
def chainLoad (c : Chip) (m : Memory) (e : Env) (x : Core) (n : Nat) (j : Job) (entry a : Nat) :
    Option Nat × List Eff × ChainEntry :=
  let no : ChainEntry := ⟨0#64, [], []⟩
  if entry < 16 ∨ 63 < entry then (some 1, [], no)
  else if a % 8 ≠ 0 ∨ c.recordPlace e j a = false then (some 3, [], no)
  else
    let r := callRead e { x with sup := true } m a 13 0 []
    match r.2.1 with
    | .default => (some 3, r.2.2, no)
    | .okay =>
      let ce : ChainEntry := ⟨fput (r.1.getD 0 0#64 &&& hdrBits) F.TIL_CHAIN_HDR_VALID 1,
        ((r.1.drop 1).take 8).map fun w => w &&& nodeBits, (r.1.drop 9).take 4⟩
      if !ce.ok then (some 2, r.2.2, no)
      else if (c.clu n).slots.any fun s => s.2.inFlight && s.2.view.chain == entry then (some 4, r.2.2, no)
      else (some 0, r.2.2, ce)
    | _ => (none, r.2.2, no)

/-- Store the code of a call over G4 of the frame of every member of a cluster, as the executive does before its RFE. -/
def storeCode (c : Chip) (m : Memory) (n code : Nat) : Chip × Memory :=
  (c.members n).foldl (fun s k =>
    let key := 3 * n + k
    let x := s.1.core key
    let a := x.frame + 0x40
    let r := frameStore (envOf s.1 n k) { x with sup := true } s.2 a code
    (s.1.setCore key (cacheStore x a 8 code), r.1)) (c, m)

/-- CHAIN_LOAD_CALL (R104): the executive of a cluster serves SVC 0x0001; the RFE that follows returns to the kernel. -/
def chainLoadCall (c : Chip) (m : Memory) (n : Nat) : Chip × Memory :=
  let lead := c.leadOf n
  let x := c.core lead
  match (c.clu n).job.bind c.job with
  | none => (c, m)
  | some j =>
    if !((c.members n).all fun k => (c.core (3 * n + k)).inCall 1) then (c, m)
    else
      let e := envOf c n (lead - 3 * n)
      let g := callRead e { x with sup := true } m (x.frame + 0x40) 2 0 []
      if g.2.1 ≠ .okay then (c.applyEffs m g.2.2, m)
      else
        let entry := (g.1.getD 0 0#64).toNat
        let r := chainLoad c m e x n j entry (g.1.getD 1 0#64).toNat
        let c1 := c.applyEffs m (g.2.2 ++ r.2.1)
        match r.1 with
        | none => (c1, m)
        | some code =>
          let c2 := if code = 0 then j.clusters.foldl (fun c k => c.setChainEntry k entry r.2.2) c1 else c1
          storeCode c2 m n code

/-- JOB_BARRIER_CALL (R85): a cluster waits in SVC 0x0002 with all its streams retired; the last one to arrive lets every
cluster return, its data caches invalidated (R244). -/
def Chip.barrierCall (c : Chip) (n : Nat) : Chip :=
  match (c.clu n).job.bind c.job with
  | none => c
  | some j =>
    if !((c.members n).all fun k => (c.core (3 * n + k)).inCall 2) || (c.clu n).slots.any fun e => e.2.inFlight then c
    else
      let c1 := c.setClu n { c.clu n with inBarrier := true }
      if j.clusters.all fun k => (c1.clu k).inBarrier then
        j.clusters.foldl (fun c k =>
          let c := (List.range 3).foldl (fun c i => c.setCore (3 * k + i) { c.core (3 * k + i) with dcache := [] }) c
          c.setClu k { c.clu k with inBarrier := false, barrierOpen := true }) c1
      else c1

/-! ## Meanings -/

/-- JOB_START (R50). -/
def execJobStart (p : Fin 4) (s : State) : Out :=
  let r := jobStart s.chip s.mem p.val
  s.goBoth r.1 r.2

/-- JOB_COMPLETE (R53). -/
def execJobComplete (handle : Nat) (s : State) : Out := s.goChip (s.chip.jobComplete s.mem handle)

/-- COMPLETION_POST (R23). -/
def execCompletionPost (handle : Nat) (s : State) : Out := s.goChip (s.chip.postEnded handle false)

/-- DISCARD_RESPONSE (R364). -/
def execDiscardResponse (handle : Nat) (s : State) : Out := s.goChip (s.chip.postEnded handle true)

/-- CHAIN_LOAD_CALL (R104). -/
def execChainLoadCall (cl : Fin 48) (s : State) : Out :=
  let r := chainLoadCall s.chip s.mem cl.val
  s.goBoth r.1 r.2

/-- JOB_BARRIER_CALL (R85). -/
def execJobBarrierCall (cl : Fin 48) (s : State) : Out := s.goChip (s.chip.barrierCall cl.val)

end Sys2Proof.Machine
end

