-- ==== Sys2Proof/Machine/Owl.lean ====
section
/-! DEFINITION. Machine/Owl.lean: decisions on Fox windows and requests (R293, R298, R299), resynchronisation (R300-R304),
stop, self-test and restart (R305-R308), heartbeats (R318) and injections at the cores (R319-R322); the Badger pair's
comparator (R323). -/

namespace Sys2Proof.Machine

/-! ## Places -/

/-- Location code of core k of a cluster (Table 0.5). -/
def coreLoc (n k : Nat) : Nat := n / 12 * 2 ^ 28 + n % 12 * 2 ^ 24 + (0xC + k) * 2 ^ 20 + 0xFFFFF

/-- A detection of a cluster's Owl that names a core (L3). -/
def coreDet (src n k detail : Nat) (inj coinc : Bool) : Detection :=
  ⟨src, n, coreLoc n k, 3, detail, [], k, 0, inj, coinc⟩

/-- A detection of a cluster's Owl that names the cluster (L4). -/
def cluDet (src n detail : Nat) (inj coinc : Bool) : Detection := ⟨src, n, cluLoc n, 4, detail, [], 0, 0, inj, coinc⟩

/-! ## Injections (Table 11.6) -/

/-- The injection armed at a point of a cluster: TARGET and PATTERN, of which 0 acts as 1. -/
def Chip.injAt (c : Chip) (n pt : Nat) : Option (Nat × Nat) :=
  let w := c.reg (R.OWL_INJ n)
  if fget w F.OWL_INJ_ARMED = 1 ∧ fget w F.OWL_INJ_POINT = pt then
    some (fget w F.OWL_INJ_TARGET, max 1 (c.reg (R.OWL_INJ_PAT n)).toNat)
  else none

/-- An injection has acted: ARMED clears; FIRED when it alone explains the detection, COINCIDENT when a real fault
reached the detector with it (R321, R322). -/
def Chip.injActed (c : Chip) (n : Nat) (coinc : Bool) : Chip :=
  let w := fput (c.reg (R.OWL_INJ n)) F.OWL_INJ_ARMED 0
  c.setReg (R.OWL_INJ n) (if coinc then fput w F.OWL_INJ_COINCIDENT 1 else fput w F.OWL_INJ_FIRED 1)

/-- Act when an injection was there. -/
def Chip.injEnd (c : Chip) (n : Nat) (i : Option (Nat × Nat)) (real : Bool) : Chip :=
  if i.isSome then c.injActed n real else c

/-! ## What a comparison finds -/

/-- Outcome of comparing the members. -/
inductive Finding where
  | agree
  | odd (k : Nat)
  | split
  deriving DecidableEq, Repr

/-- R298: all members agree; exactly one of three differs from two equal ones; or neither. -/
def judge {α : Type} [DecidableEq α] (v : Nat → α) : List Nat → Finding
  | [a, b, d] =>
    if v a = v b then (if v a = v d then .agree else .odd d)
    else if v a = v d then .odd b
    else if v b = v d then .odd a
    else .split
  | [a, b] => if v a = v b then .agree else .split
  | _ => .agree

/-- The number a list of faults gives for core k. -/
def upsetOf (l : List (Fin 3 × Word)) (k : Nat) : Nat :=
  ((l.find? fun e => e.1.val == k).map fun e => e.2.toNat).getD 0

/-- DETAIL of a finding (Table 13.4). -/
def findDetail (ks : List Nat) : Finding → Nat
  | .agree => 0
  | .odd k => (ks.filter (· != k)).headD 0 * 2 ^ 8 + 2 ^ k
  | .split => maskOf ks

/-- Report a finding of a comparison of Fox cores: resync or fence of the odd core, or stop (Table 11.3). -/
def Chip.owlReport (c : Chip) (m : Memory) (n : Nat) (ks : List Nat) (f : Finding) (inj coinc : Bool) : Chip :=
  match f with
  | .agree => c
  | .odd k =>
    c.detect m (coreDet (if c.thirdResync n k && !inj then 0x21 else 0x20) n k (findDetail ks f) inj coinc)
  | .split => c.detect m (cluDet 0x22 n (findDetail ks f) inj coinc)

/-! ## Decisions on windows -/

/-- The window of a core is released (R297, R298): its stores go to the Fox port in program order, its descriptor to the
issue unit (R56). -/
def Core.release (x : Core) : Core :=
  match x.closed with
  | some w => { x with closed := none, released := x.released ++ w.win.buf,
                       issue := match w.win.desc with | some d => some d | none => x.issue }
  | none => x

/-- R318: the pattern of the heartbeat with number `h`. -/
def beatPattern (h : Nat) : Nat :=
  let p := 0x8000000000000001
  let r := h % 64
  p * 2 ^ r % 2 ^ 64 + p / 2 ^ (64 - r)

/-- R318: is a heartbeat's report what it shall be: a mismatch whose syndrome is the pattern? `beat` is what a fault changes in the
syndrome reported, none when the unit reports no mismatch. -/
def beatOk (h : Nat) (beat : Option Word) : Bool :=
  match beat with
  | some w => nxor (beatPattern h) w.toNat == beatPattern h
  | none => false

/-- R318: one more decision; after every 4,096th the heartbeat comparison follows, which affects no release. A report that is missing or
shows another syndrome is source 0x27. -/
def Chip.owlBeat (c : Chip) (m : Memory) (n : Nat) (beat : Option Word) : Chip :=
  let p := c.fld (R.OWL_STAT n) F.OWL_STAT_HB_PHASE
  let c1 := c.setFld (R.OWL_STAT n) F.OWL_STAT_HB_PHASE ((p + 1) % 4096)
  if p = 4095 then
    let h := (c1.clu n).owlHb
    let c2 := c1.setClu n { c1.clu n with owlHb := h + 1 }
    if beatOk h beat then c2 else c2.detect m (cluDet 0x27 n 0 false false)
  else c1

/-- R301: is a core's closed window a rejoin boundary at which the pair stalls (R300 step 4)? -/
def Core.atBoundary (x : Core) : Bool :=
  (match x.closed with | some w => w.boundary | none => false)
    && x.winFresh && x.critEnd.isNone && x.spill.isNone && !x.exc

/-- Does the cluster's pair stand at the rejoin boundary of a resync whose Den copy has ended? -/
def Chip.rejoinStall (c : Chip) (n : Nat) (x : Core) : Bool :=
  match (c.clu n).resync with
  | some r => r.copied && (r.atBoundary || x.atBoundary)
  | none => false

/-- Release the windows of the listed cores; the decision on a boundary window brings the pair to the rejoin. -/
def Chip.releaseAll (c : Chip) (n : Nat) (ks : List Nat) : Chip :=
  let due := c.rejoinStall n (c.core (3 * n + ks.headD 0))
  let c1 := ks.foldl (fun c k => c.setCore (3 * n + k) (c.core (3 * n + k)).release) c
  match (c1.clu n).resync with
  | some r => if due then c1.setClu n { c1.clu n with resync := some { r with atBoundary := true } } else c1
  | none => c1

/-- Drop the closed windows of the listed cores. -/
def Chip.dropClosed (c : Chip) (n : Nat) (ks : List Nat) : Chip :=
  ks.foldl (fun c k => c.setCore (3 * n + k) { c.core (3 * n + k) with closed := none }) c

/-- What the Owl compares of a closed window: signature and close record. -/
def Core.decided (x : Core) (upset : Nat) : Nat × Nat × Nat :=
  match x.closed with
  | some w => (nxor w.win.sig upset, w.rec0, w.rec1)
  | none => (0, 0, 0)

/-- Has core k's closed window a store, whose entry a release reads? -/
def Core.holdsStore (x : Core) : Bool :=
  match x.closed with
  | some w => !w.win.buf.isEmpty
  | none => false

/-- R307: an injected parity error in a delay register (point 0x3, in DMR) or in a window store buffer entry (point 0x4):
the core whose entry errs. -/
def Chip.parityInj (c : Chip) (n : Nat) (ks : List Nat) : Option Nat :=
  match c.injAt n 3, c.injAt n 4 with
  | some _, _ => if c.fld (R.OWL_STAT n) F.OWL_STAT_CONFIG = 2 then some (ks.getD 1 0) else none
  | none, some (t, _) => if ks.contains t && (c.core (3 * n + t)).holdsStore then some t else none
  | none, none => none

/-- OWL_DECISION on a cluster (R298, R307, R317, R318, R321, R322): every member has closed a window. `upset` is what a fault has
changed in a member's signature; `rails` says that the decision's rails disagree; `beat` is the report of the heartbeat comparison when
one follows. An error at another detector, a parity error or a rail, hides no disagreement of the members: each is recorded. -/
def Chip.owlDecide (c : Chip) (m : Memory) (n : Nat) (upset : List (Fin 3 × Word)) (rails : Bool) (beat : Option Word) : Chip :=
  let ks := c.members n
  if ks.isEmpty || !(ks.all fun k => (c.core (3 * n + k)).closed.isSome) then c
  else
    let real := judge (fun k => (c.core (3 * n + k)).decided (upsetOf upset k)) ks
    let hurt := real != .agree
    let decided := match c.parityInj n ks with
      | some k =>
        let tmr := c.fld (R.OWL_STAT n) F.OWL_STAT_CONFIG = 1
        let det := if tmr then coreDet 0x23 n k (findDetail ks (.odd k)) true false else cluDet 0x23 n (maskOf ks) true false
        ((((c.dropClosed n ks).injActed n false).owlReport m n ks real false false).detect m { det with unit := k })
      | none =>
        let i5 := c.injAt n 5
        if rails || i5.isSome then
          (((c.injEnd n i5 rails).dropClosed n ks).owlReport m n ks real false false).detect m
            (cluDet 0x27 n 0 (!rails) (rails && i5.isSome))
        else
          let i1 := (c.injAt n 1).filter fun (i : Nat × Nat) => ks.contains i.1
          let f := if hurt then real
            else match i1 with
              | some (t, _) => if ks.length = 3 then .odd t else .split
              | none => .agree
          let c1 := c.injEnd n i1 hurt
          match f with
          | .agree => c1.releaseAll n ks
          | .odd k => ((c1.releaseAll n (ks.filter (· != k))).dropClosed n [k]).owlReport m n ks f (!hurt) (hurt && i1.isSome)
          | .split => (c1.dropClosed n ks).owlReport m n ks f (!hurt) (hurt && i1.isSome)
    decided.owlBeat m n beat

/-- OWL_DECISION on the Badger pair (R323). -/
def Chip.badgerDecide (c : Chip) (m : Memory) (upset : List (Fin 3 × Word)) : Chip :=
  let x := c.core 144
  let y := c.core 145
  if c.badger.restarting || x.closed.isNone || y.closed.isNone then c
  else
    let b := c.badger
    let c := { c with badger := { b with hbPhase := (b.hbPhase + 1) % 4096, hb := if b.hbPhase = 4095 then b.hb + 1 else b.hb } }
    if x.decided (upsetOf upset 0) = y.decided (upsetOf upset 1) then
      (c.setCore 144 x.release).setCore 145 y.release
    else c.badgerStop m true

/-! ## Requests (R293) -/

/-- The request of core k with an injected pattern in its address bits [47:0]. -/
def reqOf (l : List (Fin 3 × Request)) (k : Nat) (i : Option (Nat × Nat)) : Option Request :=
  ((l.find? fun e => e.1.val == k).map Prod.snd).map fun r =>
    match i with
    | some (t, p) => if t = k then { r with addr := nxor r.addr (p % 2 ^ 48) } else r
    | none => r

/-- REQUEST_COMPARE on a cluster: one request of every member. The presented request is performed by the word that
made it. -/
def Chip.compareReqs (c : Chip) (m : Memory) (n : Nat) (l : List (Fin 3 × Request)) : Chip :=
  let ks := c.members n
  if ks.isEmpty || !(ks.all fun k => (reqOf l k none).isSome) then c
  else
    let i := (c.injAt n 2).filter fun i => ks.contains i.1
    let real := judge (fun k => reqOf l k none) ks
    let hurt := real != .agree
    let f := if hurt then real else judge (fun k => reqOf l k i) ks
    (c.injEnd n i hurt).owlReport m n ks f (!hurt) (hurt && i.isSome)

/-- REQUEST_COMPARE on the Badger pair. -/
def Chip.compareBadger (c : Chip) (m : Memory) (l : List (Fin 3 × Request)) : Chip :=
  match reqOf l 0 none, reqOf l 1 none with
  | some a, some b => if a = b || c.badger.restarting then c else c.badgerStop m true
  | _, _ => c

/-! ## Resynchronisation -/

/-- Is a key a cell of a core's Den: a byte or a check byte? -/
def inDen (core k : Nat) : Bool :=
  let b := denBase core
  (decide (b ≤ k) && decide (k < b + 0x20000))
    || (decide (chkKey b ≤ k) && decide (k < chkKey b + 0x4000))

/-- The same cell of another core's Den. -/
def denMove (src dst k : Nat) : Nat :=
  if k < 2 ^ 48 then k - denBase src + denBase dst else k - chkKey (denBase src) + chkKey (denBase dst)

/-- R300 step 2: the odd core's Den takes the donor's words. -/
def copyDen (src dst : Nat) (m : Memory) : Memory :=
  (m.filter fun e => inDen src e.1).foldl (fun a e => memPut a (denMove src dst e.1) e.2) (memForget m (inDen dst))

/-- A window that closed before the Den copy had finished is no rejoin boundary (R300 step 3). -/
def Core.pastBoundary (x : Core) : Core := { x with closed := x.closed.map fun w => { w with boundary := false } }

/-- DEN_COPY_DONE. -/
def denCopyDone (c : Chip) (m : Memory) (n : Nat) : Chip × Memory :=
  match (c.clu n).resync with
  | some r =>
    if r.copied then (c, m)
    else
      let c1 := (c.members n).foldl (fun c k => c.setCore (3 * n + k) (c.core (3 * n + k)).pastBoundary) c
      (c1.setClu n { c1.clu n with resync := some { r with copied := true } }, copyDen (3 * n + r.donor) (3 * n + r.odd) m)
  | none => (c, m)

/-- A core whose caches and fetch queue are invalid (R300 step 6, R302). -/
def Core.emptied (x : Core) : Core := { x with dcache := [], icache := [], fetchq := [] }

/-- The Owl's event of a cluster: code, core and fence map (Table 20.1). -/
def Chip.owlEvent (c : Chip) (n code k : Nat) : Chip :=
  c.raise (191 + n) (code + k * 2 ^ 8 + maskOf ((List.range 3).filter (c.coreFenced n)) * 2 ^ 12)

/-- REJOIN (R300 steps 4 to 6): at the boundary, with every released store acknowledged. -/
def Chip.doRejoin (c : Chip) (n : Nat) : Chip :=
  match (c.clu n).resync with
  | some r =>
    let x := c.core (3 * n + r.donor)
    if !r.copied || !r.atBoundary || !((c.members n).all fun k => (c.core (3 * n + k)).released.isEmpty) then c
    else
      let c1 := c.setCore (3 * n + r.odd) x
      let c2 := (List.range 3).foldl (fun c k => c.setCore (3 * n + k) (c.core (3 * n + k)).emptied) c1
      let c3 := (c2.setFld (R.OWL_CORE n r.odd) F.OWL_CORE_ROLE 0).setClu n { c2.clu n with resync := none }
      ((c3.setFld (R.OWL_STAT n) F.OWL_STAT_CONFIG 1).setFld (R.OWL_STAT n) F.OWL_STAT_RESYNC_BUSY 0).owlEvent n 1 r.odd
  | none => c

/-! ## Stop, self-test, restart (R305, R306, R308) -/

/-- Fence the cores that failed; with fewer than two left the cluster is fenced. -/
def Chip.failCores (c : Chip) (m : Memory) (n : Nat) (fails : List Nat) : Chip :=
  fails.foldl (fun c k => if c.coreFenced n k || c.cluFenced n then c else c.detect m (coreDet 0x24 n k (2 ^ k) false false)) c

/-- CORE_SELFTEST_DONE: `fails` are the cores whose signature differs from the Owl's constant. -/
def Chip.selftestDone (c : Chip) (m : Memory) (n : Nat) (fails : List Nat) : Chip :=
  let x := c.clu n
  if x.stop ≠ .selfTest then c
  else
    let bad := fails.filter fun k => !c.coreFenced n k
    let c1 := c.failCores m n bad
    let third := bad.isEmpty && x.stopCounted && decide (2 ≤ recentCount x.stopAt x.stopHist)
    let c2 := if third then c1.detect m (cluDet 0x25 n 0 false false)
      else if bad.isEmpty && x.stopCounted then c1.setClu n { c1.clu n with stopHist := histAdd x.stopHist x.stopAt }
      else c1
    if c2.cluFenced n || c2.faults.halted then c2 else c2.setClu n { c2.clu n with stop := .awaitRestart }

/-- R305 step 5: Badger restarts the executive on a cluster: configuration, cores, standard chains. -/
def Chip.restartCluster (c : Chip) (n : Nat) : Chip :=
  let c1 := c.setClu n { c.clu n with stop := .running }
  ((c1.configure n (c1.cluMode n)).startExec n).loadStd n

/-- EXECUTIVE_RESTART. -/
def executiveRestart (c : Chip) (m : Memory) (n : Nat) : Chip × Memory :=
  if (c.clu n).stop = .awaitRestart ∧ c.badger.restarting = false then
    ((c.restartCluster n).owlEvent n 3 0, clusterDens n m)
  else (c, m)

/-! ## Meanings -/

/-- OWL_DECISION (R298). -/
def execOwlDecision (t : Tgt) (upset : List (Fin 3 × Word)) (rails : Rails) (s : State) : Out :=
  s.goChip (match t with
    | .fox n => s.chip.owlDecide s.mem n.val upset rails.apart rails.beat
    | .badger => s.chip.badgerDecide s.mem upset)

/-- REQUEST_COMPARE (R293). -/
def execRequestCompare (t : Tgt) (reqs : List (Fin 3 × Request)) (s : State) : Out :=
  s.goChip (match t with
    | .fox n => s.chip.compareReqs s.mem n.val reqs
    | .badger => s.chip.compareBadger s.mem reqs)

/-- DEN_COPY_DONE (R300). -/
def execDenCopyDone (cl : Fin 48) (s : State) : Out :=
  let r := denCopyDone s.chip s.mem cl.val
  s.goBoth r.1 r.2

/-- REJOIN (R301). -/
def execRejoin (cl : Fin 48) (s : State) : Out := s.goChip (s.chip.doRejoin cl.val)

/-- CORE_SELFTEST_DONE (R305). -/
def execCoreSelftestDone (cl : Fin 48) (fails : List (Fin 3)) (s : State) : Out :=
  s.goChip (s.chip.selftestDone s.mem cl.val (fails.map Fin.val))

/-- EXECUTIVE_RESTART (R305). -/
def execExecutiveRestart (cl : Fin 48) (s : State) : Out :=
  let r := executiveRestart s.chip s.mem cl.val
  s.goBoth r.1 r.2

end Sys2Proof.Machine
end

