-- ==== Sys2Proof/Machine/Residue.lean ====
section
/-! DEFINITION. Machine/Residue.lean: page retirement (R184-R190) and pseudo-channel substitution (R171-R182). -/

namespace Sys2Proof.Machine

/-! ## Page retirement -/

/-- The slot of a retired page, pending or not. -/
def Chip.pageSlot (c : Chip) (d page : Nat) : Option Nat := ((c.dom d).retire.find? fun e => e.2.1 == page).map Prod.fst

/-- R190: the lowest-numbered slot whose VALID is 0. -/
def Chip.freeSlot (c : Chip) (d : Nat) : Option Nat :=
  (List.range 4096).find? fun i => (mget? (c.dom d).retire i).isNone

/-- Pages recorded in flash for a domain (R189). -/
def Chip.flashPages (c : Chip) (d : Nat) : List Nat := mget [] c.flash.pages d

/-- Set the recorded pages of a domain. -/
def Chip.setFlashPages (c : Chip) (d : Nat) (l : List Nat) : Chip :=
  { c with flash := { c.flash with pages := mset c.flash.pages d l } }

/-- R343: SUSPECT entries whose DRAM word meets `p` are freed: a retirement or substitution covers them. -/
def Chip.freeSuspects (c : Chip) (d : Nat) (p : Nat → Bool) : Chip :=
  let x := c.dom d
  let one := fun (e : Nat × RctEntry) =>
    if e.2.state = 2 ∧ e.2.scratch = false ∧ p e.2.waddr = true then (e.1, ({} : RctEntry)) else e
  c.setDom d { x with rct := x.rct.map one }

/-- Write a retirement entry: into the map (with PENDING in a SAFE mode) and into the flash record. -/
def Chip.addPage (c : Chip) (d page slot : Nat) (pend : Bool) : Chip :=
  let x := c.dom d
  let c1 := c.setDom d { x with retire := mset x.retire slot (page, pend) }
  let c2 := (c1.setReg (R.RES_RET_IDX d) (wNat slot)).setFlashPages d (c.flashPages d ++ [page])
  if pend then c2 else c2.freeSuspects d fun w => w * 8 / 65536 == page

/-- Remove a page's entry: VALID of its slot clears (R190), and the page leaves the record. -/
def Chip.dropPage (c : Chip) (d page slot : Nat) : Chip :=
  let x := c.dom d
  ((c.setDom d { x with retire := mdel x.retire slot, retOld := mset x.retOld slot page }).setReg (R.RES_RET_IDX d) (wNat slot)).setFlashPages d
    ((c.flashPages d).filter (· != page))

/-- Forget one stored word: its bytes and its check byte. -/
def forgetWord (m : Memory) (k : Nat) : Memory :=
  memDel ((List.range 8).foldl (fun m i => memDel m (k + i)) m) (chkKey k)

/-- Forget `n` words of a domain from an offset on (R189: a removed page is unwritten). -/
def forgetWords (c : Chip) (d off : Nat) : Nat → Memory → Memory
  | 0, m => m
  | n + 1, m =>
    let m1 := forgetWords c d off n m
    let o := off + 8 * n
    match c.physOf d (chanOf o) with
    | some k => forgetWord m1 (dramKey d k (localOf o) (o % 64))
    | none => m1

/-- CMD_RETIRE_PAGE (R186, R187, R189). -/
def retirePage (c : Chip) (m : Memory) (cmd : Cmd) : Chip × Memory :=
  let p := cmd.part % 4
  let w := cmd.p 0
  let d := bits w 49 48
  let page := bits w 19 0
  if !(c.diesOf p).contains d then (c.respond cmd St.param [], m)
  else if bit w 63 then
    match c.pageSlot d page with
    | none => (c.respond cmd St.param [], m)
    | some i => ((c.dropPage d page i).respond cmd St.ok [], forgetWords c d (page * 65536) 8192 m)
  else if 749567 < page ∨ (c.pageSlot d page).isSome then (c.respond cmd St.param [], m)
  else match c.freeSlot d with
    | none => (c.respond cmd St.resource [], m)
    | some i =>
      let safe := c.safePart p
      let c1 := c.addPage d page i safe
      if safe then ({ c1 with mgmt := { c1.mgmt with retireWait := c1.mgmt.retireWait ++ [cmd] } }, m)
      else (c1.respond cmd St.ok [], m)

/-- R187: does a started, uncompleted job of the die's partition declare a range that contains the page? -/
def Chip.pageDeclared (c : Chip) (d page : Nat) : Bool :=
  let r : Range := ⟨false, d * 2 ^ 36 + page * 65536, 65536⟩
  c.openJobs.any fun j => c.partOf d == some j.part && j.started && j.ranges.any r.overlaps

/-- R187: PENDING of a page clears once no such job is left; the command that waits is answered. -/
def Chip.pendingClear (c : Chip) (d page : Nat) : Chip :=
  match (c.dom d).retire.find? fun e => e.2 == (page, true) with
  | none => c
  | some e =>
    if c.pageDeclared d page then c
    else
      let x := c.dom d
      let c1 := (c.setDom d { x with retire := mset x.retire e.1 (page, false) }).freeSuspects d
        fun w => w * 8 / 65536 == page
      let mine := fun (k : Cmd) => bits (k.p 0) 49 48 == d && bits (k.p 0) 19 0 == page
      let c2 := { c1 with mgmt := { c1.mgmt with retireWait := c1.mgmt.retireWait.filter fun k => !mine k } }
      (c1.mgmt.retireWait.filter mine).foldl (fun c k => c.respond k St.ok []) c2

/-! ## Substitution -/

/-- Granules of a pseudo-channel (R158). -/
def pchGranules : Nat := 12582912

/-- R172: the lowest-numbered spare in state SPARE. -/
def Chip.lowSpare (c : Chip) (d : Nat) : Option Nat :=
  (List.range 64).find? fun n => c.fld (R.RES_PCH d n) F.RES_PCH_STATE == 1

/-- RES_SUB_CTRL as Badger writes it. -/
def subWord (spare target copy : Nat) : Word :=
  wNat (fat F.RES_SUB_CTRL_SPARE spare + fat F.RES_SUB_CTRL_TARGET target + fat F.RES_SUB_CTRL_COPY copy)

/-- May RES_SUB_CTRL.START begin a substitution of `target` by `spare`? -/
def Chip.subStartable (c : Chip) (d spare target copy : Nat) : Bool :=
  let st := c.fld (R.RES_PCH d target) F.RES_PCH_STATE
  !c.flag (R.RES_SUB_STAT d) F.RES_SUB_STAT_BUSY && c.fld (R.RES_PCH d spare) F.RES_PCH_STATE == 1
    && (st == 0 || (st == 5 && copy == 0 && c.fld (R.RES_PCH d target) F.RES_PCH_LOGICAL != 0x3F))

/-- R173, R179: START: the status is cleared of the last run; a copy makes the target SOURCE and the spare COPYING. In a swap-only the
poison fill runs and then the logical channel switches. -/
def Chip.subStart (c : Chip) (d : Nat) (cmd : Option Cmd) : Chip :=
  let w := c.reg (R.RES_SUB_CTRL d)
  let spare := fget w F.RES_SUB_CTRL_SPARE
  let target := fget w F.RES_SUB_CTRL_TARGET
  let copy := fget w F.RES_SUB_CTRL_COPY
  if !c.subStartable d spare target copy then c
  else
    let st := c.reg (R.RES_SUB_STAT d)
    let st := fput (fput (fput st F.RES_SUB_STAT_BUSY 1) F.RES_SUB_STAT_UCE_COUNT 0) F.RES_SUB_STAT_PROGRESS 0
    let c1 := (c.setReg (R.RES_SUB_STAT d) st).setDom d
      { c.dom d with subCmd := cmd, subSpare := spare, subTarget := target, subCopy := copy == 1 }
    if copy = 1 then
      let l := c.fld (R.RES_PCH d target) F.RES_PCH_LOGICAL
      (c1.setFld (R.RES_PCH d target) F.RES_PCH_STATE 3).setReg (R.RES_PCH d spare)
        (wNat (fat F.RES_PCH_STATE 2 + fat F.RES_PCH_LOGICAL l))
    else c1

/-- CMD_PC_SUBSTITUTE (R172): the conditions of its table are judged in the table's order. -/
def Chip.substitute (c : Chip) (cmd : Cmd) : Chip :=
  let p := cmd.part % 4
  let w := cmd.p 0
  let d := bits w 49 48
  let n := bits w 13 8
  let copy := bits w 0 0
  let st := c.fld (R.RES_PCH d n) F.RES_PCH_STATE
  if !(c.diesOf p).contains d then c.respond cmd St.param []
  else if ¬(st = 0 ∨ st = 5) then c.respond cmd St.param []
  else if copy = 1 ∧ st = 5 then c.respond cmd St.param []
  else if c.flag (R.RES_SUB_STAT d) F.RES_SUB_STAT_BUSY then c.respond cmd St.busy []
  else if c.longRuns p then c.respond cmd St.busy []
  else match c.lowSpare d with
    | none => c.respond cmd St.resource []
    | some spare =>
      let c1 := (c.setReg (R.RES_SUB_CTRL d) (subWord spare n copy)).subStart d (some cmd)
      { c1 with mgmt := { c1.mgmt with long := c1.mgmt.long ++ [⟨cmd, d, 0, 0⟩] } }

/-- Folded address of word `i` of granule `q` of logical channel `l` (R158, R161). -/
def foldOf (l q i : Nat) : Nat := (q * 61 + l) * 8 + i

/-- R176: copy one word from the source to the spare: corrected when correctable, unchanged when not. -/
def copyWord (c : Chip) (m : Memory) (d src dst l q i : Nat) : Chip × Memory :=
  let ks := dramKey d src q (8 * i)
  let kd := dramKey d dst q (8 * i)
  let a := foldOf l q i
  let loc : Loc := .dram d (8 * a)
  let r := readStored c m ks a loc
  let c1 := c.masterHit m r.hit 0 [] false
  match r.resp, memChk m ks with
  | .okay, _ => (c1, memPutWord m kd r.data (codeCheck r.data a))
  | _, some chk => (c1.addFld (R.RES_SUB_STAT d) F.RES_SUB_STAT_UCE_COUNT 1, memPutWord m kd (memWord m ks) chk)
  | _, none => (c1.addFld (R.RES_SUB_STAT d) F.RES_SUB_STAT_UCE_COUNT 1, forgetWord m kd)

/-- R173 step 2: copy the next granule. -/
def copyGranule (c : Chip) (m : Memory) (d : Nat) : Chip × Memory :=
  let x := c.dom d
  let q := c.fld (R.RES_SUB_STAT d) F.RES_SUB_STAT_PROGRESS
  let l := c.fld (R.RES_PCH d x.subTarget) F.RES_PCH_LOGICAL
  if !(c.flag (R.RES_SUB_STAT d) F.RES_SUB_STAT_BUSY && x.subCopy) || decide (pchGranules ≤ q) || c.faults.halted then
    (c, m)
  else
    let step := fun (s : Chip × Memory) (i : Nat) =>
      if s.1.fld (R.RES_PCH d x.subTarget) F.RES_PCH_STATE = 3
      then copyWord s.1 s.2 d x.subTarget x.subSpare l q i else s
    let r := (List.range 8).foldl step (c, m)
    if r.1.flag (R.RES_SUB_STAT d) F.RES_SUB_STAT_BUSY then
      (r.1.setFld (R.RES_SUB_STAT d) F.RES_SUB_STAT_PROGRESS (q + 1), r.2)
    else r

/-- R177, R182: the switch: the spare serves the logical channel, the target is RETIRED, DONE is set, the substitution is
recorded in flash and the command answered. -/
def Chip.subSwap (c : Chip) (d : Nat) : Chip :=
  let x := c.dom d
  let l := c.fld (R.RES_PCH d x.subTarget) F.RES_PCH_LOGICAL
  let c1 := (c.setReg (R.RES_PCH d x.subTarget) (wNat (fat F.RES_PCH_STATE 4 + fat F.RES_PCH_LOGICAL 0x3F))).setReg
    (R.RES_PCH d x.subSpare) (wNat (fat F.RES_PCH_STATE 0 + fat F.RES_PCH_LOGICAL l))
  let w := c1.reg (R.RES_SUB_STAT d)
  let w := fput (fput (fput w F.RES_SUB_STAT_BUSY 0) F.RES_SUB_STAT_DONE 1) F.RES_SUB_STAT_PROGRESS pchGranules
  let c2 := (c1.setReg (R.RES_SUB_STAT d) w).freeSuspects d fun a => chanOf (8 * a) == l
  let c3 := { c2 with flash := { c2.flash with subs := c2.flash.subs ++ [(d, (x.subTarget, x.subSpare))] } }
  let c4 := (c3.setDom d { c3.dom d with subCmd := none }).raise (139 + d) (2 ^ 16 + x.subSpare * 2 ^ 8 + x.subTarget)
  let c5 := c4.sync
  match x.subCmd with
  | some cmd =>
    (c5.endLong cmd).respond cmd St.ok [wNat x.subSpare, wNat (c.fld (R.RES_SUB_STAT d) F.RES_SUB_STAT_UCE_COUNT)]
  | none => c5

/-- The switch after the last granule of a copy. -/
def Chip.swapAfterCopy (c : Chip) (d : Nat) : Chip :=
  if c.flag (R.RES_SUB_STAT d) F.RES_SUB_STAT_BUSY && (c.dom d).subCopy
      && c.fld (R.RES_SUB_STAT d) F.RES_SUB_STAT_PROGRESS == pchGranules
  then c.subSwap d else c

/-- Is a key one of the bytes, or check bytes, of a physical channel? -/
def pchKey (d n k : Nat) : Bool :=
  let b := if 2 ^ 48 ≤ k then (k - 2 ^ 48) * 8 else k
  decide (d * 2 ^ 36 + n * 0x30000000 ≤ b) && decide (b < d * 2 ^ 36 + (n + 1) * 0x30000000)

/-- R179: the poison fill ends: every word of the spare reads as uncorrectable, then the logical channel switches. A spare that
has left SPARE meanwhile abandons the swap. -/
def poisonDone (c : Chip) (m : Memory) (d : Nat) : Chip × Memory :=
  let x := c.dom d
  if !c.flag (R.RES_SUB_STAT d) F.RES_SUB_STAT_BUSY || x.subCopy || c.faults.halted then (c, m)
  else if c.fld (R.RES_PCH d x.subSpare) F.RES_PCH_STATE = 1 then
    (c.subSwap d, memForget m (pchKey d x.subSpare))
  else
    let w := c.reg (R.RES_SUB_STAT d)
    let c1 := (c.setReg (R.RES_SUB_STAT d) (fput (fput w F.RES_SUB_STAT_BUSY 0) F.RES_SUB_STAT_ABANDONED 1)).raise
      (139 + d) (x.subSpare * 2 ^ 8 + x.subTarget)
    let c2 := c1.setDom d { c1.dom d with subCmd := none }
    match x.subCmd with
    | some cmd => ((c2.endLong cmd).respond cmd St.aborted [wNat x.subSpare, 0#64], m)
    | none => (c2, m)

/-! ## Meanings -/

/-- CMD_RETIRE_PAGE (R186). -/
def execCmdRetirePage (c : Cmd) (s : State) : Out :=
  let r := serveBoth s.chip s.mem 0x33 c retirePage
  s.goBoth r.1 r.2

/-- RETIRE_PENDING_CLEAR (R187). -/
def execRetirePendingClear (d : Fin 4) (page : Nat) (s : State) : Out := s.goChip (s.chip.pendingClear d.val page)

/-- CMD_PC_SUBSTITUTE (R172). -/
def execCmdPcSubstitute (c : Cmd) (s : State) : Out := s.goChip (s.chip.serve 0x34 c Chip.substitute)

/-- RES_SUB_START (Table 6.7): Badger writes RES_SUB_CTRL; START begins the substitution that its fields describe. -/
def execResSubStart (d : Fin 4) (w : Word) (s : State) : Out :=
  let c1 := s.chip.writeMasked (R.RES_SUB_CTRL d.val) w
  s.goChip (if bit w.toNat 0 then c1.subStart d.val none else c1)

/-- SUBST_COPY_GRANULE (R173-R176). -/
def execSubstCopyGranule (d : Fin 4) (s : State) : Out :=
  let r := copyGranule s.chip s.mem d.val
  s.goBoth r.1 r.2

/-- SUBST_SWAP (R177). -/
def execSubstSwap (d : Fin 4) (s : State) : Out := s.goChip (s.chip.swapAfterCopy d.val)

/-- POISON_FILL_DONE (R179). -/
def execPoisonFillDone (d : Fin 4) (s : State) : Out :=
  let r := poisonDone s.chip s.mem d.val
  s.goBoth r.1 r.2

end Sys2Proof.Machine
end

