-- ==== Sys2Proof/Machine/Scrub.lean ====
section
/-! DEFINITION. Machine/Scrub.lean: Hedgehog (R336-R345), the memory controllers and their stacks (R155, R156, R166-R169),
the scratch word slots (R215-R217), the raw window (R224-R226) and the secure-region wipe (R222, R223). -/

namespace Sys2Proof.Machine

/-! ## Recommendations (R340, R343, R344) -/

/-- Place of a word that a repeat-correct entry names. -/
def rctLoc (d : Nat) (e : RctEntry) : Loc := if e.scratch then .scratch d (8 * e.waddr) else .dram d (8 * e.waddr)

/-- The physical channel of an entry's DRAM word. -/
def Chip.rctPch (c : Chip) (d : Nat) (e : RctEntry) : Option Nat :=
  if e.scratch then none else c.physOf d (chanOf (8 * e.waddr))

/-- SUSPECT entries in a physical channel. -/
def Chip.suspectsIn (c : Chip) (d n : Nat) : List Nat :=
  (List.range 64).filter fun i =>
    let e := mget {} (c.dom d).rct i
    e.state == 2 && c.rctPch d e == some n

/-- Set the recommendation of an entry and raise the event of the domain. -/
def Chip.setRec (c : Chip) (d i kind : Nat) : Chip :=
  let x := c.dom d
  let e := mget {} x.rct i
  (c.setDom d { x with rct := mset x.rct i { e with recd := true, recKind := kind } }).raise (119 + d)
    (kind * 2 ^ 8 + i)

/-- R344: recommend for a SUSPECT entry: its line, its page, or, once PCH_SUSPECT suspects have lain in its channel, the channel
for each of them and for every later one. -/
def Chip.recommend (c : Chip) (d i : Nat) : Chip :=
  let e := mget {} (c.dom d).rct i
  if e.scratch then c.setRec d i 2
  else match c.rctPch d e with
    | none => c.setRec d i 0
    | some n =>
      let l := c.suspectsIn d n
      let x := c.dom d
      if x.reached.contains n || decide (max 1 (c.fld (R.HOG_CTRL d) F.HOG_CTRL_PCH_SUSPECT) ≤ l.length) then
        let c := if x.reached.contains n then c else c.setDom d { x with reached := x.reached ++ [n] }
        ((l.filter fun k => k != i && (mget {} (c.dom d).rct k : RctEntry).recKind != 1).foldl
          (fun c k => c.setRec d k 1) c).setRec d i 1
      else c.setRec d i 0

/-- Make a word SUSPECT in slot `i` and recommend. -/
def Chip.makeSuspect (c : Chip) (d i bitNo : Nat) : Chip :=
  let x := c.dom d
  let e := mget {} x.rct i
  (c.setDom d { x with rct := mset x.rct i { e with state := 2, bitNo := bitNo } }).recommend d i

/-- R340: an uncorrectable word that Hedgehog finds gets a recommendation: an entry in SUSPECT with BIT 0x7F. -/
def Chip.suspectWord (c : Chip) (d : Nat) (scr : Bool) (wa : Nat) : Chip :=
  let x := c.dom d
  match x.rctSlot scr wa with
  | some i => if (mget {} x.rct i : RctEntry).state = 2 then c else c.makeSuspect d i 0x7F
  | none => match x.rctVictim with
    | none => c.addFld (R.HOG_RCT_STAT d) F.HOG_RCT_STAT_DROPPED 1
    | some i =>
      (c.setDom d { x with rct := mset x.rct i { state := 1, scratch := scr, count := 1, waddr := wa } }).makeSuspect d i
        0x7F

/-! ## Laps (R336-R338, R341) -/

/-- Granules of a domain (R158). -/
def domainGranules : Nat := 767557632

/-- Lines of a die's scratch, and the first line of the secure region. -/
def scratchLines : Nat := 393216

/-- First 256-byte line of the secure region. -/
def secureLine : Nat := 389120

/-- Position in the lap. -/
def Chip.lapPos (c : Chip) (d : Nat) : Nat := c.fld (R.HOG_LAP d) F.HOG_LAP_POS

/-- Set the position and part of the lap. -/
def Chip.setLap (c : Chip) (d pos scr : Nat) : Chip :=
  (c.setFld (R.HOG_LAP d) F.HOG_LAP_POS pos).setFld (R.HOG_STAT d) F.HOG_STAT_IN_SCRATCH scr

/-- R341: at the end of a lap every COUNTING entry not incremented in it is freed; the others count anew. -/
def lapEntry (e : RctEntry) : RctEntry :=
  if e.state = 1 ∧ e.inLap = false then {} else { e with inLap := false }

/-- The lap ends: its duration is reported, UCE_LAP and the ageing start anew (R338, R341, R491). -/
def Chip.endLap (c : Chip) (d : Nat) : Chip :=
  let x := c.dom d
  let ms := min (2 ^ 32 - 1) ((c.now - x.lapStart) / 1000000)
  let c1 := c.setDom d { x with
    rct := x.rct.map fun e => (e.1, lapEntry e.2), uceWords := [], lapStart := c.now, lapLate := false }
  let c2 := (List.range 64).foldl (fun c n => c.setFld (pchStat d n) F.MEM_PCH_STAT_UCE_LAP 0) c1
  ((c2.setFld (R.HOG_LAP d) F.HOG_LAP_SCR_LAP_MS ms).setLap d 0 0).addFld (R.HOG_STAT d) F.HOG_STAT_LAP_COUNT 1

/-- Start of the scratch part: the whole scratch with SCR_EN, else the secure region alone. -/
def Chip.scratchPart (c : Chip) (d : Nat) : Chip :=
  c.setLap d (if c.flag (R.HOG_CTRL d) F.HOG_CTRL_SCR_EN then 0 else secureLine) 1

/-- R336: with SCR_EN 0 the scratch part goes over the secure region alone, from any moment on. -/
def Chip.skipLines (c : Chip) (d : Nat) : Chip :=
  if c.flag (R.HOG_STAT d) F.HOG_STAT_IN_SCRATCH && !c.flag (R.HOG_CTRL d) F.HOG_CTRL_SCR_EN && decide (c.lapPos d < secureLine)
  then c.setLap d secureLine 1 else c

/-- Move past the granule or line that was reached. -/
def Chip.advanceLap (c : Chip) (d : Nat) : Chip :=
  let p := c.lapPos d + 1
  if c.flag (R.HOG_STAT d) F.HOG_STAT_IN_SCRATCH then
    if scratchLines ≤ p then c.endLap d else c.setLap d p 1
  else if domainGranules ≤ p then c.scratchPart d else c.setLap d p 0

/-! ## Hedgehog's reads -/

/-- Write a corrected word back, mirrored to the spare during a copy (R339). -/
def putBack (c : Chip) (m : Memory) (key fold : Nat) (l : Loc) (data : Nat) : Memory :=
  writeStored c m key fold l data false

/-- One word of a scrub read: recorded, written back when correctable, recommended when not (R339, R340). -/
def scrubWord (c : Chip) (m : Memory) (key fold : Nat) (l : Loc) (drop : Bool) : Chip × Memory :=
  let r := readStored c m key fold l
  let c1 := match r.hit with
    | some h => c.hit m h 0x12 0x13 0xFF [] false
    | none => c
  match r.hit.map Hit.out with
  | some .clean => (c1, m)
  | some .bad =>
    match l with
    | .dram d off => (c1.suspectWord d false (off / 8), m)
    | .scratch d off => (c1.suspectWord d true (off / 8), m)
    | _ => (c1, m)
  | some _ => (c1, if drop then m else putBack c1 m key fold l r.data)
  | none => (c1, m)

/-- The words of the granule or line at the lap's position, with their keys and folded addresses; none where a channel serves
nothing. -/
def Chip.lapWords (c : Chip) (d : Nat) : List (Nat × Nat × Loc) :=
  let p := c.lapPos d
  if c.flag (R.HOG_STAT d) F.HOG_STAT_IN_SCRATCH then
    (List.range 32).map fun i =>
      let off := p * 256 + 8 * i
      (0x400000000000 + d * 0x10000000 + off, off / 8, .scratch d off)
  else match c.physOf d (p % 61) with
    | none => []
    | some n => (List.range 8).map fun i =>
        let off := p * 64 + 8 * i
        (dramKey d n (p / 61) (8 * i), off / 8, .dram d off)

/-- R348: Hedgehog skips the page of an open window. -/
def Chip.lapSkips (c : Chip) (d : Nat) : Bool :=
  let p := c.lapPos d
  if c.flag (R.HOG_STAT d) F.HOG_STAT_IN_SCRATCH then (c.bypass (.scratch d (p * 256))).isSome
  else (c.bypass (.dram d (p * 64))).isSome

/-- May Hedgehog of a die read (R337)? -/
def Chip.hogRuns (c : Chip) (d : Nat) : Bool :=
  !c.faults.halted && (c.partOf d).isSome && !c.flag (R.HOG_STAT d) F.HOG_STAT_PAUSED
    && [2 * d, 2 * d + 1].all fun s => c.fld (R.MEM_STAT s) F.MEM_STAT_PSTATE == 0

/-- Invert one bit of a stored word: 0-63 data, from 64 on check bits. -/
def flipCell (m : Memory) (key b : Nat) : Memory :=
  match memChk m key with
  | none => m
  | some chk =>
    if b < 64 then memPutWord m key (nxor (memWord m key) (2 ^ b)) chk
    else memPutWord m key (memWord m key) (nxor chk (2 ^ (b % 8)))

/-- The key of a word that a repeat-correct entry names, where a channel serves it. -/
def Chip.rctKey (c : Chip) (l : Loc) : Option Nat :=
  match l with
  | .dram d off => (c.physOf d (chanOf off)).map fun n => dramKey d n (localOf off) (off % 64)
  | .scratch d off => some (0x400000000000 + d * 0x10000000 + off)
  | _ => none

/-- What a cell shows after the write-back of R342: 0 as written, 1 the entry's bit inverted again, 2 another bit inverted, with
the entry's bit or without it. -/
def cellShows (m : Memory) (key b again n : Nat) : Memory :=
  match again with
  | 0 => m
  | 1 => flipCell m key b
  | _ =>
    let m1 := flipCell m key ((b + 1 + Config.freeNat n % 71) % 72)
    if Config.freeBool n then flipCell m1 key b else m1

/-- R343: the re-read decides the entry in slot `i`. -/
def rereadDecides (c : Chip) (m : Memory) (d i : Nat) (l : Loc) (r : WordRead) : Chip :=
  let x := c.dom d
  let e := mget {} x.rct i
  let syn := match r.hit with
    | some h => h.syn
    | none => 0
  let det := fun (c : Chip) (bitNo lev : Nat) =>
    c.detect m ⟨0x14, 52 + 7 * d, c.locCode l bitNo, lev, 0xFF * 2 ^ 8 + syn, [], 0, lev, false, false⟩
  match r.hit.map Hit.out with
  | none | some .clean => c.setDom d { x with rct := mset x.rct i {} }
  | some .bad =>
    let c1 := det (c.countUce l) 0xFF 2
    let c2 := match l with
      | .dram _ off => c1.uceLap m d ((c.physOf d (chanOf off)).getD 0) (off / 8)
      | _ => c1
    c2.makeSuspect d i 0x7F
  | some o =>
    if corrBit o = e.bitNo then (det (c.countCe l) e.bitNo 1).makeSuspect d i e.bitNo
    else (det (c.countCe l) 0xFF 2).makeSuspect d i 0x7F

/-- A word that a master writes between Hedgehog's read and its write-back, where it is one of the words read (R339). -/
def newerWrite (s : Chip × Memory) (ws : List (Nat × Nat × Loc)) (a : SlotAccess) : Chip × Memory :=
  match a.write, ws.find? fun w => w.2.1 == a.off / 8 with
  | some (v, mask), some w =>
    let r := writeWord s.1 s.2 w.1 w.2.1 w.2.2 v.toNat mask.toNat
    (s.1.masterHit s.2 r.2.2 a.master a.job.toList false, r.1)
  | _, _ => s

/-- R342, R343: act on a word whose count reached the threshold: read it, write it back corrected, and read it again. Where masters have
written since the first read (`newer`), the write-back is dropped and the re-read judges their data. What the cell then shows is `again`, as
`cellShows` says. -/
def repeatAction (c : Chip) (m : Memory) (d i again : Nat) (newer : List SlotAccess) : Chip × Memory :=
  let undue := fun (c : Chip) => c.setDom d { c.dom d with rctDue := (c.dom d).rctDue.filter (· != i) }
  let e := mget {} (c.dom d).rct i
  let l := rctLoc d e
  match c.rctKey l with
  | none => (undue c, m)
  | some key =>
    if (c.bypass l).isSome ∨ e.state ≠ 1 then (undue c, m)
    else
      let r := readStored c m key e.waddr l
      let c1 := undue (match r.hit with
        | some h => c.hit m h 0x12 0x13 0xFF [] false
        | none => c)
      let u := newer.foldl (fun s a => newerWrite s [(key, e.waddr, l)] a) (c1, m)
      let m1 := if !newer.isEmpty then u.2 else if r.resp != .okay then m else putBack c m key e.waddr l r.data
      let m2 := cellShows m1 key (mget {} (u.1.dom d).rct i).bitNo again u.1.freeCtr
      let c2 := u.1.fresh
      (rereadDecides c2 m2 d i l (readStored c2 m2 key e.waddr l), m2)

/-- SCRUB_READ with the words `newer` that masters write meanwhile: a word that is due is acted on before any further read; otherwise the lap's next granule or line is read. -/
def scrub (c : Chip) (m : Memory) (d again : Nat) (newer : List SlotAccess) : Chip × Memory :=
  if !c.hogRuns d then (c, m)
  else match (c.dom d).rctDue with
    | i :: _ => repeatAction c m d i again newer
    | [] =>
      let c := (if c.flag (R.HOG_STAT d) F.HOG_STAT_IN_SCRATCH || c.flag (R.HOG_CTRL d) F.HOG_CTRL_DRAM_EN
        then c else c.scratchPart d).skipLines d
      if c.lapSkips d then (c.advanceLap d, m)
      else
        let ws := c.lapWords d
        let r := ws.foldl (fun s w => scrubWord s.1 s.2 w.1 w.2.1 w.2.2 (!newer.isEmpty)) (c, m)
        let r := newer.foldl (fun s a => newerWrite s ws a) r
        (r.1.advanceLap d, r.2)

/-- R338: a lap that has reached LAP_LIMIT minutes is reported once; before the fill of R335 there is no lap. -/
def Chip.lapOverdue (c : Chip) (d : Nat) : Chip :=
  let x := c.dom d
  let limit := max 1 (c.fld (R.HOG_CTRL d) F.HOG_CTRL_LAP_LIMIT) * 60000000000
  if x.lapLate || decide (c.now - x.lapStart < limit) || !c.flag (R.HOG_CTRL d) F.HOG_CTRL_DRAM_EN then c
  else ((c.setFld (R.HOG_STAT d) F.HOG_STAT_OVERDUE 1).setDom d { x with lapLate := true }).raise (115 + d)

/-! ## Controllers and stacks -/

/-- R155, R156: a controller reads a granule of a physical channel; every word is checked. No request reaches a channel that does not serve
its logical channel, and a stack that is not active answers none (R169). -/
def Chip.ctrlRead (c : Chip) (m : Memory) (d n q port : Nat) (jobs : List Nat) : Chip :=
  let l := c.fld (R.RES_PCH d n) F.RES_PCH_LOGICAL
  if l = 0x3F ∨ c.physOf d l ≠ some n ∨ c.stackOff d n = true then c
  else (List.range 8).foldl (fun c i =>
    let a := foldOf l q i
    c.masterHit m (readStored c m (dramKey d n q (8 * i)) a (.dram d (8 * a))).hit port jobs false) c

/-- One word of a write to a granule: index, data and byte enables. -/
def ctrlWord (s : Chip × Memory) (d n q l port : Nat) (jobs : List Nat) (w : Nat × Word × Nat) : Chip × Memory :=
  let a := foldOf l q w.1
  let r := writeWord s.1 s.2 (dramKey d n q (8 * w.1)) a (.dram d (8 * a)) w.2.1.toNat w.2.2
  (s.1.masterHit s.2 r.2.2 port jobs false, r.1)

/-- R155, R156, R74: a controller accepts a write to domain granule g: from then on every read returns the new data. -/
def ctrlWrite (c : Chip) (m : Memory) (d g port : Nat) (jobs : List Nat) (ws : List (Nat × Word × Nat)) : Chip × Memory :=
  match c.physOf d (g % 61) with
  | none => (c, m)
  | some n => if c.stackOff d n then (c, m) else ws.foldl (fun s w => ctrlWord s d n (g / 61) (g % 61) port jobs w) (c, m)

/-- State of a stack (Table 6.4): 0 normal, 1 doubled refresh, 2 throttled, 3 shut down. -/
def Chip.stackState (c : Chip) (s : Nat) : Nat :=
  let w := c.reg (R.MEM_STAT s)
  if fget w F.MEM_STAT_THROTTLE = 1 then 2 else if fget w F.MEM_STAT_REF2X = 1 then 1 else 0

/-- Table 6.4 with its lower bounds for leaving a state. -/
def nextStack (cur : Nat) (t : Int) : Nat :=
  if 105 ≤ t then 3
  else if 95 ≤ t ∨ (cur = 2 ∧ 90 ≤ t) then 2
  else if 85 ≤ t ∨ (1 ≤ cur ∧ 82 ≤ t) then 1
  else 0

/-- An 8-bit two's complement field as an integer, and back. -/
def s8 (n : Nat) : Int := sx 8 n

/-- The 8-bit field of an integer. -/
def u8 (t : Int) : Nat := (t % 256).toNat

/-- Location code of a stack at L4. -/
def stackLoc (s : Nat) : Nat := s / 2 * 2 ^ 28 + (0xC + s % 2) * 2 ^ 24 + 0xFFFFFF

/-- Is a key in the storage of a stack? -/
def stackKey (s k : Nat) : Bool := (List.range 32).any fun i => pchKey (s / 2) (32 * (s % 2) + i) k

/-- STACK_TEMP_READ (R167, R168): the reading, the state change with its event, source 0x63 on entering the throttled state,
source 0x64 at shutdown, after which the stack is unpowered. -/
def stackTemp (c : Chip) (m : Memory) (s : Nat) (t : Int) : Chip × Memory :=
  let a := R.MEM_STAT s
  let d := s / 2
  let cur := c.stackState s
  let tmax := max (s8 (c.fld a F.MEM_STAT_TEMP_MAX)) t
  let c1 := (c.setFld a F.MEM_STAT_TEMP (u8 t)).setFld a F.MEM_STAT_TEMP_MAX (u8 tmax)
  if c.fld a F.MEM_STAT_PSTATE = 2 then (c1, m)
  else
    let nxt := nextStack cur t
    if nxt = cur then (c1, m)
    else
      let c2 := (c1.setFld a F.MEM_STAT_REF2X (b2n (decide (1 ≤ nxt)))).setFld a F.MEM_STAT_THROTTLE
        (b2n (decide (2 ≤ nxt)))
      let c3 := c2.raise (123 + s) nxt
      if nxt = 2 then
        let c4 := c3.detect m ⟨0x63, 53 + 7 * d, stackLoc s, 4, 0, [], 0, 0, false, false⟩
        (match c4.partOf d with
          | some p => if c4.fixlat d then c4.timingVoid p else c4
          | none => c4, m)
      else if nxt = 3 then
        let c4 := c3.detect m ⟨0x64, 53 + 7 * d, stackLoc s, 4, 0, [], 0, 0, false, false⟩
        (c4.setFld a F.MEM_STAT_PSTATE 2, memForget m (stackKey s))
      else (c3, m)

/-- CHANNEL_RETRAINING (Table 19.8, Table 13.7): a retraining counts; an error that persists is source 0x18. -/
def Chip.channelRetrain (c : Chip) (m : Memory) (d n : Nat) (persists : Bool) : Chip :=
  let c1 := c.addFld (pchStat d n) F.MEM_PCH_STAT_RETRAINS 1
  if persists then c1.detect m (pchDetection d n) else c1

/-! ## Scratch word slots -/

/-- R215: the accesses of one cycle in round-robin order of master number, starting after the one served last. -/
def roundRobin (last : Option Nat) (l : List SlotAccess) : List SlotAccess :=
  let ins := fun (acc : List SlotAccess) (x : SlotAccess) =>
    (acc.takeWhile fun y => decide (y.master ≤ x.master)) ++ [x] ++ (acc.dropWhile fun y => decide (y.master ≤ x.master))
  let sorted := l.foldl ins []
  match last with
  | none => sorted
  | some k => (sorted.filter fun x => decide (k < x.master)) ++ (sorted.filter fun x => decide (x.master ≤ k))

/-- The key and the place of the word at an offset of a die's scratch, or of hub SRAM for die 4. -/
def slotPlace (d off : Nat) : Nat × Loc :=
  let o := off / 8 * 8
  if d < 4 then (0x400000000000 + d * 0x10000000 + o, .scratch d o) else (0x500000000000 + o, .hub o)

/-- One access of a word slot: a write, performed through the wrapper (R217), or a checked read. -/
def slotAccess (d : Nat) (s : Chip × Memory) (a : SlotAccess) : Chip × Memory :=
  let p := slotPlace d a.off
  match a.write with
  | none => (s.1.masterHit s.2 (readStored s.1 s.2 p.1 (a.off / 8) p.2).hit a.master a.job.toList false, s.2)
  | some (w, mask) =>
    let r := writeWord s.1 s.2 p.1 (a.off / 8) p.2 w.toNat mask.toNat
    (s.1.masterHit s.2 r.2.2 a.master a.job.toList false, r.1)

/-- R216: the cycles of a slot, one write and one read in each, the write first (R215: the read of that cycle returns the new data). -/
def slotCycles : List SlotAccess → List SlotAccess → List SlotAccess
  | w :: ws, r :: rs => w :: r :: slotCycles ws rs
  | [], rs => rs
  | ws, [] => ws

/-- Remember the master that a slot served last, under key k. -/
def Chip.servedLast (c : Chip) (k : Nat) (l : List SlotAccess) : Chip :=
  match l.getLast? with
  | some a => { c with fabric := { c.fabric with slotLast := mset c.fabric.slotLast k a.master } }
  | none => c

/-- SCRATCH_ACCESS: the accesses that reach the word slot of `off` in one cycle: it serves its writes and its reads one in each cycle, both in
round-robin order (R215, R216, R229). DESIGN CHOICE (log 81): each of the two orders starts after the master last served in its own kind. -/
def scratchAccess (c : Chip) (m : Memory) (d off : Nat) (acc : List SlotAccess) : Chip × Memory :=
  let k := 2 * slotNo d off
  let ws := roundRobin (mget? c.fabric.slotLast k) (acc.filter fun a => a.write.isSome)
  let rs := roundRobin (mget? c.fabric.slotLast (k + 1)) (acc.filter fun a => a.write.isNone)
  let r := (slotCycles ws rs).foldl (slotAccess d) (c, m)
  ((r.1.servedLast k ws).servedLast (k + 1) rs, r.2)

/-! ## Raw window and secure region -/

/-- R225: scratch offset of the word that the window's fields name. -/
def rawOff (w : Word) : Nat :=
  let bank := fget w F.SCR_RAW_CTRL_BANK
  let row := fget w F.SCR_RAW_CTRL_MACRO * 1024 + fget w F.SCR_RAW_CTRL_WORD
  (row * 96 + 2 * fget w F.SCR_RAW_CTRL_SUBBANK + bank / 32) * 256 + bank % 32 * 8

/-- R225: does the window refuse the word? -/
def Chip.rawRefused (c : Chip) (d : Nat) (w : Word) : Bool :=
  let dl3 := match c.partOf d with
    | some p => c.sessionOpen p && c.fld (R.DBG_SESSION p) F.DBG_SESSION_LEVEL == 3
    | none => false
  decide (48 ≤ fget w F.SCR_RAW_CTRL_SUBBANK) || (decide (0x05F00000 ≤ rawOff w) && !dl3)

/-- GO (R224-R226): one access through port 1 of an SRAM block; `busy` is a collision with port 0 on the same word. A write that collides
remains, and leaves a wrapper read of that word in the same cycle undefined. -/
def rawGo (c : Chip) (m : Memory) (d : Nat) (busy : Bool) : Chip × Memory :=
  let w := c.reg (R.SCR_RAW_CTRL d)
  let a := R.SCR_RAW_STAT d
  if fget w F.SCR_RAW_CTRL_EN = 0 then (c, m)
  else if c.rawRefused d w then
    ((c.setFld a F.SCR_RAW_STAT_DONE 1).setFld a F.SCR_RAW_STAT_REFUSED 1, m)
  else
    let key := 0x400000000000 + d * 0x10000000 + rawOff w
    let c1 := c.setFld a F.SCR_RAW_STAT_DONE 1
    let c2 := if busy then c1.setFld a F.SCR_RAW_STAT_BUSY_SEEN 1 else c1
    if fget w F.SCR_RAW_CTRL_WRITE = 1 then
      ({ c2 with rawAt := if busy then some (key, c.now) else c2.rawAt }, memPutWord m key (c.reg (R.SCR_RAW_DATA d)).toNat (c.fld a F.SCR_RAW_STAT_CHECK))
    else
      let free := busy || (memChk m key).isNone
      let n := c2.freeCtr
      let data := if free then Config.freeWord n else wNat (memWord m key)
      let chk := if free then Config.freeNat n else (memChk m key).getD 0
      ((c2.fresh.setReg (R.SCR_RAW_DATA d) data).setFld a F.SCR_RAW_STAT_CHECK chk, m)

/-- R222: a trigger starts the wipe of every secure region. -/
def Chip.startWipe (c : Chip) (cause : Nat) : Chip :=
  (List.range 4).foldl (fun c d =>
    let a := R.SCR_SEC_STAT d
    ((c.setFld a F.SCR_SEC_STAT_WIPING 1).setFld a F.SCR_SEC_STAT_LAST_CAUSE cause).addFld a F.SCR_SEC_STAT_WIPE_COUNT 1) c

/-- R222: zero data with valid check bits in every word of the secure regions. -/
def wipeMem (m : Memory) : Memory :=
  (List.range 4).foldl (fun m d => memFill (fun _ => 0) (0x4000_05F0_0000 + d * 0x10000000) (0x05F00000 / 8) 0x20000 m) m

/-- The wipe ends. -/
def Chip.wipeEnd (c : Chip) : Chip := (List.range 4).foldl (fun c d => c.setFld (R.SCR_SEC_STAT d) F.SCR_SEC_STAT_WIPING 0) c

/-! ## Meanings -/

/-- SCRUB_READ (R337): `newer` are the words that masters write to the granule or line between Hedgehog's read and its write-back (R339). -/
def execScrubRead (d : Fin 4) (newer : List SlotAccess) (again : Fin 3) (s : State) : Out :=
  let r := scrub s.chip s.mem d.val again.val newer
  s.goBoth r.1 r.2

/-- LAP_OVERDUE (R338). -/
def execLapOverdue (d : Fin 4) (s : State) : Out := s.goChip (s.chip.lapOverdue d.val)

/-- MEM_CTRL_READ (R155, R165). -/
def execMemCtrlRead (d : Fin 4) (pch : Fin 64) (q master : Nat) (job : Option Nat) (s : State) : Out :=
  s.goChip (s.chip.ctrlRead s.mem d.val pch.val q master job.toList)

/-- MEM_CTRL_WRITE (R156). -/
def execMemCtrlWrite (d : Fin 4) (g : Nat) (words : List (Fin 8 × Word × BitVec 8)) (master : Nat) (job : Option Nat)
    (s : State) : Out :=
  let r := ctrlWrite s.chip s.mem d.val g master job.toList (words.map fun w => (w.1.val, w.2.1, w.2.2.toNat))
  s.goBoth r.1 r.2

/-- SCRATCH_ACCESS (R215). -/
def execScratchAccess (d : Fin 5) (off : Nat) (acc : List SlotAccess) (s : State) : Out :=
  let r := scratchAccess s.chip s.mem d.val off acc
  s.goBoth r.1 r.2

/-- DRAM_REFRESH (R166): the contents are kept; only the controller's timing, which the model leaves out, shows it. -/
def execDramRefresh (_ : Fin 8) (s : State) : Out := .next s

/-- STACK_TEMP_READ (R167). -/
def execStackTempRead (st : Fin 8) (temp : Int) (s : State) : Out :=
  let r := stackTemp s.chip s.mem st.val temp
  s.goBoth r.1 r.2

/-- CHANNEL_RETRAINING (R491). -/
def execChannelRetraining (d : Fin 4) (pch : Fin 64) (persists : Bool) (s : State) : Out :=
  s.goChip (s.chip.channelRetrain s.mem d.val pch.val persists)

/-- RAW_MACRO_GO (R224-R226): Badger writes SCR_RAW_CTRL. -/
def execRawMacroGo (d : Fin 4) (w : Word) (busy : Bool) (s : State) : Out :=
  let c1 := s.chip.writeMasked (R.SCR_RAW_CTRL d.val) w
  let r := if bit w.toNat 0 then rawGo c1 s.mem d.val busy else (c1, s.mem)
  s.goBoth r.1 r.2

/-- SECURE_WIPE (R222): `cause` 0 to 2 stand for the causes 0x01 to 0x03. -/
def execSecureWipe (cause : Fin 3) (s : State) : Out := s.goChip (s.chip.startWipe (cause.val + 1))

/-- SECURE_WIPE_DONE (R223). -/
def execSecureWipeDone (s : State) : Out :=
  if (List.range 4).any fun d => s.chip.flag (R.SCR_SEC_STAT d) F.SCR_SEC_STAT_WIPING
  then s.goBoth s.chip.wipeEnd (wipeMem s.mem) else .next s

end Sys2Proof.Machine
end

