-- ==== Sys2Proof/Machine/Maint.lean ====
section
/-! DEFINITION. Machine/Maint.lean: built-in tests (Table 15.6, R225, R305, R320), injections (R319) and the check-bit bypass
window (R346, R348) as commands. -/

namespace Sys2Proof.Machine

/-! ## CMD_BIST -/

/-- What the parts under test answer: failing cores, a collision in the raw window, failing words by index. -/
structure TestOutcome where
  cores : List (Nat × Nat) := []
  busy : Bool := false
  words : List Nat := []
  deriving DecidableEq, Repr

/-- Test 0x01: stop, self-test and restart of each named cluster that is not fenced (R305); the response names those in
which a core failed. -/
def bistCores (c : Chip) (m : Memory) (cmd : Cmd) (o : TestOutcome) : Chip × Memory :=
  let p := cmd.part % 4
  let mask := cmd.p 1
  if 2 ^ 48 ≤ mask ∨ ((onesOf 48 mask).any fun n => !(c.clustersOf p).contains n) = true then
    (c.respond cmd St.param [], m)
  else
    let ns := (onesOf 48 mask).filter fun n => !c.cluFenced n
    let bad := fun (n : Nat) => ((o.cores.filter fun e => e.1 == n).map Prod.snd).filter fun k => !c.coreFenced n k
    let c1 := ns.foldl (fun c n =>
      let c := (c.stopCluster n false).failCores m n (bad n)
      if c.cluFenced n then c else c.restartCluster n) c
    let m1 := (ns.filter fun n => !c1.cluFenced n).foldl (fun m n => clusterDens n m) m
    (c1.respond cmd St.ok [wNat (maskOf (ns.filter fun n => !(bad n).isEmpty))], m1)

/-- Test 0x02: Badger writes the SCR_RAW registers and answers what they then hold. -/
def bistRaw (c : Chip) (m : Memory) (cmd : Cmd) (o : TestOutcome) : Chip × Memory :=
  let d := bits (cmd.p 0) 49 48
  if !(c.diesOf (cmd.part % 4)).contains d then (c.respond cmd St.param [], m)
  else
    let c1 := (c.setReg (R.SCR_RAW_DATA d) (cmd.params.getD 2 0#64)).setReg (R.SCR_RAW_STAT d) (wNat (cmd.p 3 % 256))
    let c2 := c1.writeMasked (R.SCR_RAW_CTRL d) (cmd.params.getD 1 0#64)
    let r := if bit (cmd.p 1) 0 then rawGo c2 m d o.busy else (c2, m)
    (r.1.respond cmd St.ok [r.1.reg (R.SCR_RAW_DATA d), r.1.reg (R.SCR_RAW_STAT d)], r.2)

/-- A job of a redundancy run takes its start, or ends at once by the checks of a start (R50, R66). -/
def bistStart (c : Chip) (m : Memory) (j : Job) (n : Nat) : Chip × Memory :=
  let w := c.execWho j.part
  let safe := isSafe (c.cluMode n)
  match readBlock c m w j.pblock with
  | .answered .default _ => (c.endJob m j.handle St.range 0#64 0#64, m)
  | .answered .uce h => (c.masterHit m h w.port [j.handle] false, m)
  | .answered _ _ => (c.discardJobs m [j.handle] c.faults.linkCause.1 c.faults.linkCause.2, m)
  | .broken => (c.endJob m j.handle St.param 0#64 0#64, m)
  | .good h l =>
    if !c.rangesOk j.part j h l then (c.endJob m j.handle St.range 0#64 0#64, m)
    else
      let c1 := (c.configure n (c.cluMode n)).startExec n
      let r := startJob c1 m j [n] l safe
      (r.1, zeroDens n (clusterDens n m))

/-- Test 0x03: a job on one cluster in the configuration that TESTCFG selects (R320). It is answered at its end. -/
def bistRun (c : Chip) (m : Memory) (cmd : Cmd) : Chip × Memory :=
  let p := cmd.part % 4
  let d := bits (cmd.p 1) 49 48
  let n := 12 * d + bits (cmd.p 1) 43 40
  let entry := cmd.p 3
  let pb := cmd.p 4
  if !(c.diesOf p).contains d || decide (12 ≤ bits (cmd.p 1) 43 40) || entry % 4 != 0 || pb % 64 != 0
      || !c.populated p entry || !c.populated p pb then (c.respond cmd St.param [], m)
  else if !c.idle n then (c.respond cmd St.resource [], m)
  else
    let k := mget 0 c.mgmt.nextJob p + 1
    let h := p * 2 ^ 30 + k % 2 ^ 30
    let j : Job := { handle := h, part := p, chain := cmd.chain, tag := cmd.tag, cseq := cmd.cseq, entry := entry,
                     pblock := pb, clusters := [n], bist := true }
    let c1 := c.setFld (R.OWL_CTRL n) F.OWL_CTRL_TESTCFG (cmd.p 2 % 4)
    let g := { c1.mgmt with jobs := c1.mgmt.jobs ++ [j], nextJob := mset c1.mgmt.nextJob p k,
                            long := c1.mgmt.long ++ [⟨cmd, d, h, 0⟩] }
    bistStart { c1 with mgmt := g } m j n

/-- Leave `n` words from address `a` on unwritten. -/
def unwriteWords (c : Chip) (a : Nat) : Nat → Memory → Memory
  | 0, m => m
  | n + 1, m =>
    let m1 := match c.route badgerWho a true with
      | .word key _ _ => forgetWord m key
      | _ => m
    unwriteWords c (a + 8) n m1

/-- Test 0x04: how many words fail, the address of the first, and the range left unwritten. -/
def bistPattern (c : Chip) (m : Memory) (cmd : Cmd) (o : TestOutcome) : Chip × Memory :=
  let a := cmd.p 1
  let n := cmd.p 2
  if a % 8 ≠ 0 ∨ n = 0 ∨ c.memArea (cmd.part % 4) a (8 * n) 0x05E00000 = false then (c.respond cmd St.param [], m)
  else
    let bad := (o.words.filter fun i => decide (i < n)).eraseDups
    let first := match bad with
      | [] => 0
      | i :: r => a + 8 * r.foldl Nat.min i
    (c.respond cmd St.ok [wNat bad.length, wNat first], unwriteWords c a n m)

/-- CMD_BIST after steps 1 to 6: long commands of one partition exclude one another (R413). -/
def bist (c : Chip) (m : Memory) (cmd : Cmd) (o : TestOutcome) : Chip × Memory :=
  if c.longRuns (cmd.part % 4) then (c.respond cmd St.busy [], m)
  else match cmd.p 0 % 256 with
    | 1 => bistCores c m cmd o
    | 2 => bistRaw c m cmd o
    | 3 => bistRun c m cmd
    | _ => bistPattern c m cmd o

/-- Serve CMD_BIST. -/
def serveBist (s : State) (c : Cmd) (o : TestOutcome) : Chip × Memory :=
  serveBoth s.chip s.mem 0x40 c fun ch m cmd => bist ch m cmd o

/-! ## Injections and bypass windows -/

/-- CMD_INJECT (R319, Table 11.6): an injection armed in the cluster is replaced. -/
def Chip.inject (c : Chip) (cmd : Cmd) : Chip :=
  let w := cmd.p 0
  let d := bits w 49 48
  let n := 12 * d + bits w 43 40
  let pt := bits w 15 12
  if !(c.diesOf (cmd.part % 4)).contains d || decide (12 ≤ bits w 43 40) then c.respond cmd St.param []
  else
    let old := c.reg (R.OWL_INJ n)
    let on := decide (1 ≤ pt) && decide (pt ≤ 8)
    let v := fput (fput (fput old F.OWL_INJ_ARMED (b2n on)) F.OWL_INJ_POINT pt) F.OWL_INJ_TARGET (bits w 7 4)
    ((c.setReg (R.OWL_INJ_PAT n) (cmd.params.getD 1 0#64)).setReg (R.OWL_INJ n) v).respond cmd St.ok []

/-- CMD_CHECKBIT_WINDOW (R346, Table 15.5). -/
def Chip.checkWindow (c : Chip) (cmd : Cmd) : Chip :=
  let w := cmd.p 0
  let d := bits w 49 48
  let scr := bit w 62
  let page := bits w 19 0
  let a := R.ECC_BP_CTRL d
  if !(c.diesOf (cmd.part % 4)).contains d then c.respond cmd St.param []
  else if !bit w 63 then (c.setFld a F.ECC_BP_CTRL_EN 0).respond cmd St.ok []
  else if (if scr then 1519 else 749567) < page then c.respond cmd St.param []
  else if c.flag a F.ECC_BP_CTRL_EN then c.respond cmd St.resource []
  else
    let v := fat F.ECC_BP_CTRL_EN 1 + fat F.ECC_BP_CTRL_SCRATCH (b2n scr) + fat F.ECC_BP_CTRL_PAGE page
    (((c.setReg a (wNat v)).setReg (R.ECC_BP_CHECK d) (wNat (fat F.ECC_BP_CHECK_PATTERN (cmd.p 1 % 256)))).setReg
      (R.ECC_BP_SYN d) 0#64).respond cmd St.ok []

/-! ## Meanings -/

/-- BIST_CORE_SELFTEST (R305, Table 15.6). -/
def execBistCoreSelftest (c : Cmd) (fails : List (Fin 48 × Fin 3)) (s : State) : Out :=
  let r := serveBist s c { cores := fails.map fun e => (e.1.val, e.2.val) }
  s.goBoth r.1 r.2

/-- BIST_RAW_MACRO (R225, Table 15.6). -/
def execBistRawMacro (c : Cmd) (busy : Bool) (s : State) : Out :=
  let r := serveBist s c { busy := busy }
  s.goBoth r.1 r.2

/-- BIST_REDUNDANCY_RUN (R320, Table 15.6). -/
def execBistRedundancyRun (c : Cmd) (s : State) : Out :=
  let r := serveBist s c {}
  s.goBoth r.1 r.2

/-- BIST_MEMORY_PATTERN (Table 15.6). -/
def execBistMemoryPattern (c : Cmd) (fails : List Nat) (s : State) : Out :=
  let r := serveBist s c { words := fails }
  s.goBoth r.1 r.2

/-- CMD_INJECT (R319). -/
def execCmdInject (c : Cmd) (s : State) : Out := s.goChip (s.chip.serve 0x41 c Chip.inject)

/-- CHECKBIT_WINDOW_OPEN (R346). -/
def execCheckbitWindowOpen (c : Cmd) (s : State) : Out := s.goChip (s.chip.serve 0x42 c Chip.checkWindow)

/-- CHECKBIT_WINDOW_CLOSE (R348): the form of the command with OPEN 0. -/
def execCheckbitWindowClose (c : Cmd) (s : State) : Out := s.goChip (s.chip.serve 0x42 c Chip.checkWindow)

end Sys2Proof.Machine
end

