-- ==== Sys2Proof/Machine/Regs.lean ====
section
/-! DEFINITION. Machine/Regs.lean: writes of registers by each writer of Table 19.2 with what a write does (R4, R13, R183, R225,
R445, R484), hub DMA channels (R487) and the hold of a cluster's cores (R488). -/

namespace Sys2Proof.Machine

/-! ## Hub DMA (R487) -/

/-- A write of DMA_CTRL: PTAG and DIR, SECURE on channels 6 and 7; START begins a transfer unless BUSY or HALTED is 1. -/
def Chip.writeDmaCtrl (c : Chip) (ch : Nat) (w : Word) : Chip :=
  let w1 := if ch < 6 then fput w F.DMA_CTRL_SECURE 0 else w
  let c1 := c.writeMasked (R.DMA_CTRL ch) w1
  let st := c1.reg (R.DMA_STAT ch)
  if bit w.toNat 0 ∧ fget st F.DMA_STAT_BUSY = 0 ∧ fget st F.DMA_STAT_HALTED = 0
  then c1.setFld (R.DMA_STAT ch) F.DMA_STAT_BUSY 1 else c1

/-- A running channel moves its words and ends: MADDR and SADDR advance and WORDS counts down with each acknowledged word; a failing
piece halts the channel. While a stack answers no request (R169) the transfer does not end. -/
def dmaTransfer (c : Chip) (m : Memory) (ch : Nat) : Chip × Memory :=
  if !c.flag (R.DMA_STAT ch) F.DMA_STAT_BUSY then (c, m)
  else
    let w := c.reg (R.DMA_CTRL ch)
    let who := dmaWho ch (fget w F.DMA_CTRL_PTAG) (decide (6 ≤ ch) && fget w F.DMA_CTRL_SECURE == 1)
    let n := c.fld (R.DMA_COUNT ch) F.DMA_COUNT_WORDS
    let ma := (c.reg (R.DMA_MADDR ch)).toNat
    let so := (c.reg (R.DMA_SADDR ch)).toNat
    let sa := 0x500000000000 + so
    let src := if fget w F.DMA_CTRL_DIR = 0 then sa else ma
    let dst := if fget w F.DMA_CTRL_DIR = 0 then ma else sa
    if (List.range n).any (fun i => c.silent who (ma + 8 * i)) then (c, m) else
    let r := moveOut c m who src n 0 []
    let t := moveIn r.chip r.mem who dst r.data
    let fail := match t.fail with | some f => some f | none => r.fail
    let done := match fail with | some (k, _) => k | none => n
    ((t.chip.dmaDone ch ma n fail).setReg (R.DMA_SADDR ch) (wNat ((so + 8 * done) % 2 ^ 24)), t.mem)

/-! ## Holding and releasing a cluster's cores (R488) -/

/-- A write of FOX_CTRL: ENTRY is taken; a change of HOLD releases the unfenced cores, or takes every core into reset and ends the
cluster's job as CMD_JOB_ABORT does. -/
def Chip.writeFoxCtrl (c : Chip) (m : Memory) (n : Nat) (w : Word) : Chip :=
  let was := c.flag (R.FOX_CTRL n) F.FOX_CTRL_HOLD
  let c1 := c.writeMasked (R.FOX_CTRL n) w
  let now := c1.flag (R.FOX_CTRL n) F.FOX_CTRL_HOLD
  if was && !now then
    if c1.cluFenced n || (c1.clu n).stop != .running then c1
    else (c1.configure n (c1.cluMode n)).releaseCores n
  else if now && !was then
    let c2 := (c1.jobOn n).foldl (fun c h => c.discardJob m h St.aborted 0 0) c1
    ((c2.abandonResync n).clearIssue n).holdCluster n
  else c1

/-! ## Badger's writes -/

/-- R190: RES_RET_DATA writes VALID and PAGE of the map entry that RES_RET_IDX selects; PENDING is read-only. -/
def Chip.writeRetData (c : Chip) (d : Nat) (w : Word) : Chip :=
  let i := c.fld (R.RES_RET_IDX d) F.RES_RET_IDX_INDEX
  let x := c.dom d
  let page := bits w.toNat 19 0
  if bit w.toNat 63 then
    c.setDom d { x with retire := mset x.retire i (page, ((mget? x.retire i).map Prod.snd).getD false) }
  else c.setDom d { x with retire := mdel x.retire i, retOld := mset x.retOld i page }

/-- R319, Table 11.6: arming an injection holds only while the partition is in MAINTENANCE and at a point that the table
names. -/
def Chip.writeOwlInj (c : Chip) (n : Nat) (a : Nat) (w : Word) : Chip :=
  let pt := fget w F.OWL_INJ_POINT
  c.writeMasked a (if c.dieMode (n / 12) = 4 ∧ 1 ≤ pt ∧ pt ≤ 8 then w else fput w F.OWL_INJ_ARMED 0)

/-- Table 12.5: EN is written only while the partition is in MAINTENANCE; an opened window has seen no read yet. -/
def Chip.writeBpCtrl (c : Chip) (d : Nat) (w : Word) : Chip :=
  let a := R.ECC_BP_CTRL d
  let on := c.flag a F.ECC_BP_CTRL_EN
  let c1 := c.writeMasked a (if c.dieMode d = 4 then w else fput w F.ECC_BP_CTRL_EN (b2n on))
  if !on && c1.flag a F.ECC_BP_CTRL_EN then c1.setReg (R.ECC_BP_SYN d) 0#64 else c1

/-- A write of HOG_CTRL: setting DRAM_EN ends the interval of R334 and starts a lap (R337). -/
def Chip.writeHogCtrl (c : Chip) (d a : Nat) (w : Word) : Chip :=
  let was := c.flag a F.HOG_CTRL_DRAM_EN
  let c1 := c.writeMasked a w
  if c1.flag a F.HOG_CTRL_DRAM_EN && !was then c1.startLap d else c1

/-- A write of SCR_RAW_CTRL with GO; whether the access collides with the bank wrapper is open. -/
def badgerRaw (c : Chip) (m : Memory) (d : Nat) (w : Word) : Chip × Memory :=
  let c1 := c.writeMasked (R.SCR_RAW_CTRL d) w
  if bit w.toNat 0 then rawGo c1.fresh m d (Config.freeBool c1.freeCtr) else (c1, m)

/-- A write of a register by Badger (R484, Table 19.2). The chain table and the issue units are the Fox executive's; every
register that only hardware writes keeps its value. -/
def badgerWrite (c : Chip) (m : Memory) (a : Nat) (w : Word) : Chip × Memory :=
  match regDecode a with
  | none => (c, m)
  | some (d, die, i, k) =>
    match d.block with
    | 0x02 => ((c.writeMbx i d.off w).1, m)
    | 0x03 => (if d.off = 0 then c.writeLnkCtrl i w else c, m)
    | 0x08 => (if d.off = 0 then c.writeDmaCtrl i w else c.writeMasked a w, m)
    | 0x09 => (if d.off = 0x80 then c.swset w else c.writeMasked a w, m)
    | 0x10 => (if d.off = 0 then c.writeFoxCtrl m (12 * die + i) w else c, m)
    | 0x11 => (if d.off = 0x30 then c.writeOwlInj (12 * die + i) a w else c.writeMasked a w, m)
    | 0x12 | 0x14 => (c, m)
    | 0x16 => if d.off = 0 then badgerRaw c m die w else (c.writeMasked a w, m)
    | 0x17 =>
      if d.off = 0x08 then (if bit w.toNat 63 then c.setReg a 0#64 else c, m) else (c.writeMasked a w, m)
    | 0x18 =>
      if d.off = 0 then
        let c1 := c.writeMasked a w
        (if bit w.toNat 0 then c1.subStart die none else c1, m)
      else if d.off = 0x18 then (c.writeRetData die w, m)
      else (c.writeMasked a w, m)
    | 0x1A => (if d.off = 0 then c.writeBpCtrl die w else c.writeMasked a w, m)
    | 0x1B => (if d.off = 0 then c.writeHogCtrl die a w else c.writeMasked a w, m)
    | 0x1C =>
      let n := if die = 0xE then 76 + i else if i < 12 then 12 * die + i else 48 + 7 * die + (i - 12)
      (if d.off = 0 ∧ bit w.toNat 63 ∧ n ≠ 90 ∧ c.faults.halted = false then c.clearRecord n else c, m)
    | 0x1D => (if d.off = 0 ∧ die = 0xE ∧ k < 4 then (c.writeMasked a w).sync else c, m)
    | _ => (c.writeMasked a w, m)

/-- R190, R227, R324: registers that only Badger writes: blocks OWL and SCR, and RES_RET_IDX. -/
def onlyBadger (d : RegDef) : Bool := d.block == 0x11 || d.block == 0x16 || (d.block == 0x18 && d.off == 0x10)

/-- R454, R464: a write of a debug session reaches the registers of its partition's dies at DL2 and above. DEDUCED (log 42): what a
session may write is what a master of Table 19.2 may write there, except what only Badger writes. -/
def debugWrite (c : Chip) (m : Memory) (p a : Nat) (w : Word) : Chip × Memory :=
  match regDecode a with
  | some (d, die, _, _) =>
    if c.sessionOpen p && decide (2 ≤ c.fld (R.DBG_SESSION p) F.DBG_SESSION_LEVEL) && (c.diesOf p).contains die
        && !onlyBadger d
    then if d.block = 0x12 ∨ d.block = 0x14 then (c.foxRegWrite a w, m) else badgerWrite c m a w
    else (c, m)
  | none => (c, m)

/-- A piece that writes register `a`: it reaches the register, the default target of a die answers it (R35, R211, R479, R484), or its path
is fenced. -/
def registerPiece (c : Chip) (m : Memory) (who : Who) (a : Nat) (f : Chip → Chip × Memory) : Chip × Memory :=
  match c.route who a true with
  | .register _ => f c
  | .deflt d => (c.deferr d who true a, m)
  | _ => (c, m)

/-- The word of a write as it acts on a register whose W1C fields `hw` the hardware sets in the same cycle: the set wins (Table 0.2), so a
1 there clears nothing. -/
def sameCycle (a : Nat) (w hw : Word) : Word :=
  match regDecode a with
  | some (d, _, _, _) => w &&& ~~~(hw &&& wNat d.w1c)
  | none => w

/-- A write of a register by a master (R4, R13, R484): what the writer may not write has no effect. -/
def masterWrite (c : Chip) (m : Memory) (who : Master) (a : Nat) (w : Word) : Chip × Memory :=
  match who with
  | .badger => registerPiece c m badgerWho a fun c => badgerWrite c m a w
  | .host ch => match c.hostWrite ch.val a w with
    | .ok r => (r.1, m)
    | .error _ => (c, m)
  | .foxExec cl => registerPiece c m (foxWho c cl.val true) a fun c => (c.foxRegWrite a w, m)
  | .debug p => debugWrite c m p.val a w

/-- Apply what the accesses of a core left; a store to a register acts as its writer's. -/
def applyAll (m : Memory) (l : List Eff) (c : Chip) : Chip × Memory :=
  l.foldl (fun r e => match e with
    | .regStore w a v => if w.badger then badgerWrite r.1 r.2 a v else if w.sup then (r.1.foxRegWrite a v, r.2) else r
    | e => (r.1.applyEff r.2 e, r.2)) (c, m)

/-! ## Meanings -/

/-- DMA_START (R487). -/
def execDmaStart (ch : Fin 8) (w : Word) (s : State) : Out := s.goChip (s.chip.writeDmaCtrl ch.val w)

/-- DMA_TRANSFER_DONE (R487). -/
def execDmaTransferDone (ch : Fin 8) (s : State) : Out :=
  let r := dmaTransfer s.chip s.mem ch.val
  s.goBoth r.1 r.2

/-- FOX_HOLD_CLEAR (R488): FOX_CTRL is written with HOLD 0. -/
def execFoxHoldClear (cl : Fin 48) (w : Word) (s : State) : Out :=
  s.goChip (s.chip.writeFoxCtrl s.mem cl.val (fput w F.FOX_CTRL_HOLD 0))

/-- FOX_HOLD_SET (R488): FOX_CTRL is written with HOLD 1. -/
def execFoxHoldSet (cl : Fin 48) (w : Word) (s : State) : Out :=
  s.goChip (s.chip.writeFoxCtrl s.mem cl.val (fput w F.FOX_CTRL_HOLD 1))

/-- REGISTER_WRITE (R4, Table 0.2). The row of a hardware update of the same cycle comes before it: a write of an RW field takes effect, a
software set of a W1S field wins, and `w.set` names the W1C fields that the update has set, which stay 1 (log 78). -/
def execRegisterWrite (who : Master) (addr : Nat) (w : RegWord) (s : State) : Out :=
  let r := masterWrite s.chip s.mem who addr (sameCycle addr w.word w.set)
  s.goBoth r.1 r.2

end Sys2Proof.Machine
end

