-- ==== Sys2Proof/Machine/Fabric.lean ====
section
/-! DEFINITION. Machine/Fabric.lean: the die bus matrices and the links between dies at the level of pieces (chapter 7): choice of
target port, round-robin grant, credits, responses (R191-R203), replays on hops (R326-R328) and loss of training
(R357, source 0x41). -/

namespace Sys2Proof.Machine

/-! ## Masters and targets -/

/-- A piece's master (Table 7.1, R192), with its tag and secure attribute: a DMA channel's are those that Badger has set up (R201, R221); no
compute-die master is secure (Table 8.3). A Fox piece carries the access of a triad after voting; its privilege was checked at the core. -/
def pieceWho (c : Chip) (p : Piece) : Who :=
  if p.die = 4 then
    if p.port = 0 then badgerWho
    else
      let ch := p.port - 1
      let w := c.reg (R.DMA_CTRL ch)
      dmaWho ch (fget w F.DMA_CTRL_PTAG) (decide (6 ≤ ch) && fget w F.DMA_CTRL_SECURE == 1)
  else if p.port < 0x60 then tileWho c (12 * p.die + p.port / 8) (p.port % 8)
  else if p.port < 0x6C then foxWho c (12 * p.die + (p.port - 0x60)) true
  else { die := p.die, port := p.port, part := c.partOf p.die }

/-- Is a port of a matrix a master of its own, not an arriving link channel (Table 7.1, R192)? -/
def ownPort (die port : Nat) : Bool := if die = 4 then decide (port ≤ 8) else decide (port < 0x6C) || port == 0x7C

/-- The channel of link endpoint `i` of die `d` that a piece from master port `port` takes: master number mod 3; the channel that an arriving
piece has come on; or the next unfenced channel in ascending order (Table 7.2, Table 13.8). -/
def Chip.linkChan (c : Chip) (d i port : Nat) : Nat :=
  let want := if ownPort d port then port % 3 else port % 4
  let map := (c.reg (R.FLT_FENCE (linkInst d))).toNat
  (([want, want + 1, want + 2].map fun k => k % 3).find? fun k => !bit map (3 * i + k)).getD (want % 3)

/-- The link endpoint of die `d` toward the first die of a path. -/
def firstEndpoint (d : Nat) : List Nat → Nat
  | [] => 0
  | e :: _ => if d = 4 then e else endpointTo d e

/-- The die in which a place lies (4 is H); none where the default target answers. -/
def placeDie : Loc → Option Nat
  | .dram d _ => some d
  | .scratch d _ => some d
  | .hub _ => some 4
  | .den k _ => if k < 144 then some (k / 36) else some 4
  | .reg a => (regDecode a).map fun r => if r.2.1 = 0xE then 4 else r.2.1
  | .nowhere => none
  | .commit t _ => some (t / 192)

/-- The die whose target answers a piece that a matrix of die `d` decodes: the owner of the place, or the die whose default target answers. A
piece refused on its origin die enters no link (R196). -/
def Chip.answerDie (c : Chip) (o : OutPiece) (d : Nat) : Nat :=
  match c.route (pieceWho c o.piece) o.piece.addr o.piece.write with
  | .deflt e => if o.grants.isEmpty || e != o.piece.die then e else d
  | _ => (placeDie (locate (o.piece.addr / 8 * 8))).getD d

/-- The dies that a piece at die `d` still passes. -/
def Chip.pathFrom (c : Chip) (o : OutPiece) (d : Nat) : List Nat := pathDies c d (c.answerDie o d)

/-- The target port of the matrix of die `d` for a piece from master port `port`. On a compute die: 0-95 scratch, 0x60-0x65 residue unit, 0x70,
0x74 and 0x78 plus the channel for links up, down and to H; on H: 0-4 hub SRAM, 0x10 + 4d plus the channel for links; on both 0x7D
registers, 0x7F the default target, and 0x7E the Den windows, for which the manual names no port (log 76). -/
def Chip.targetOf (c : Chip) (o : OutPiece) (d port : Nat) : Nat :=
  match c.pathFrom o d with
  | e :: r =>
    let i := firstEndpoint d (e :: r)
    let ch := c.linkChan d i port
    if d = 4 then 0x10 + 4 * i + ch else 0x70 + 4 * i + ch
  | [] =>
    match c.route (pieceWho c o.piece) o.piece.addr o.piece.write, locate (o.piece.addr / 8 * 8) with
    | .deflt _, _ => 0x7F
    | _, .scratch _ off => off / 256 % 96
    | _, .dram _ _ => 0x60 + port % 6
    | _, .hub off => if port = 0 then 4 else off / 256 % 4
    | _, .reg _ => 0x7D
    | _, .den _ _ => 0x7E
    | _, _ => 0x7F

/-! ## Issue (R193, R198) -/

/-- R193: a burst as pieces that end at 256-byte boundaries; each keeps the burst's master, ID and job. -/
def splitBurst (p : Piece) : List Piece :=
  let first := p.addr / 8
  let n := if p.write then p.words.length else p.nwords
  (List.range (n / 32 + 2)).filterMap fun k =>
    let lo := max first (32 * (first / 32 + k))
    let hi := min (first + n) (32 * (first / 32 + k + 1))
    if hi ≤ lo then none
    else some { p with addr := 8 * lo, words := (p.words.drop (lo - first)).take (hi - lo),
                       nwords := if p.write then p.nwords else hi - lo }

/-- Do two pieces come from one master? -/
def sameMaster (a b : Piece) : Bool := a.die == b.die && a.port == b.port

/-- The ID of a burst (R198): fixed for the Fox port, the hub DMA channels and Badger; for the others the master's number for an outstanding slot,
which is unique while outstanding: the one it names when that is free, or else the lowest free one. -/
def Chip.burstId (c : Chip) (p : Piece) : Nat :=
  if p.die = 4 then (if p.port = 0 then 0x7F else p.port - 1)
  else if 0x60 ≤ p.port ∧ p.port < 0x6C then 0
  else
    let busy := (c.fabric.out.filter fun o => sameMaster o.piece p).map fun o => o.piece.id
    if p.id < 128 ∧ busy.contains p.id = false then p.id
    else ((List.range 128).find? fun k => !busy.contains k).getD 0

/-- May a master issue: is its port one of the die's own masters, and its unit in service (R203, R369)? -/
def Chip.mayIssue (c : Chip) (p : Piece) : Bool :=
  ownPort p.die p.port
    && (p.die == 4 || p.port == 0x7C
      || !(c.faults.halted
          || c.cluFenced (12 * p.die + (if p.port < 0x60 then p.port / 8 else p.port - 0x60))
          || (decide (p.port < 0x60) && c.tileFenced (12 * p.die + p.port / 8) (2 * (p.port % 8)))))

/-- A master issues a burst: its pieces wait at the matrix of its die, in order. -/
def Chip.issueBurst (c : Chip) (p : Piece) : Chip :=
  if !c.mayIssue p then c
  else
    let q := { p with id := c.burstId p }
    { c with fabric := { c.fabric with
        out := c.fabric.out ++ (splitBurst q).map fun x => { piece := x, place := some (x.die, x.port) } } }

/-! ## Grant (R194, R195, R197, R199, R202, R205) -/

/-- Request credits of a link channel. -/
def Chip.credits (c : Chip) (d i ch : Nat) : Nat := mget 32 c.fabric.credits (hopKey d i ch)

/-- Set a channel's credits; FAB_LINK_STAT shows channel 0 and the fewest of any. -/
def Chip.setCredits (c : Chip) (d i ch n : Nat) : Chip :=
  let c1 := { c with fabric := { c.fabric with credits := mset c.fabric.credits (hopKey d i ch) n } }
  let a := R.FAB_LINK_STAT d i
  let w := c1.reg a
  let w := if ch = 0 then fput w F.FAB_LINK_STAT_CRED_AVAIL n else w
  c1.setReg a (fput w F.FAB_LINK_STAT_CRED_MIN (min n (fget w F.FAB_LINK_STAT_CRED_MIN)))

/-- R202: what the credits let a piece do: go, wait for a credit, or be held because its next hop is not its last and the channel's
credits are at or below the reserve. -/
inductive CredRes where
  | go | wait | held
  deriving DecidableEq, Repr

/-- The credit check of a piece that waits at a matrix: a piece that takes no link, or whose path is fenced, needs none. -/
def Chip.credCheck (c : Chip) (o : OutPiece) (d port : Nat) : CredRes :=
  match c.pathFrom o d with
  | [] => .go
  | e :: r =>
    if c.pathFenced d (e :: r) then .go
    else
      let i := firstEndpoint d (e :: r)
      let n := c.credits d i (c.linkChan d i port)
      let keep := min 0x1F (c.fld (R.FAB_CTRL d) F.FAB_CTRL_CRED_RESERVE)
      if r ≠ [] ∧ n ≤ keep then .held else if n = 0 then .wait else .go

/-- Is a piece waiting for a grant at a matrix of die `d`? Its master port there. -/
def OutPiece.waitsAt (o : OutPiece) (d : Nat) : Option Nat :=
  match o.place with
  | some (e, port) => if e = d ∧ o.answer = none then some port else none
  | none => none

/-- Does a piece of `l` wait at master port `port` of die `d` with ID `id`? -/
def waitsWith (l : List OutPiece) (d port id : Nat) : Bool := l.any fun o => o.waitsAt d == some port && o.piece.id == id

/-- R197, R198, R199: may a piece be presented to a target port, given the pieces issued before it: fewer than 128 pieces of its master port are
outstanding, none of its ID was issued before and still waits, and none of its ID is outstanding at a different target port or link channel? -/
def Chip.mayPresent (c : Chip) (before : List OutPiece) (o : OutPiece) (d port tgt : Nat) : Bool :=
  let out := c.fabric.out.filter fun q => q.grants.any fun g => g.1 == d && g.2.1 == port
  decide (out.length < 128) && !waitsWith before d port o.piece.id
    && !(out.any fun q => q.piece.id == o.piece.id && q.grants.any fun g => g.1 == d && g.2.1 == port && g.2.2 != tgt)

/-- A piece presented to a target port: its place in the order of issue, its master port, and what its credits let it do. -/
structure Offer where
  idx : Nat
  port : Nat
  cred : CredRes
  deriving DecidableEq, Repr

/-- The pieces presented to a target port of die `d` (R194, R199). -/
def Chip.presented (c : Chip) (d tgt : Nat) : List Offer :=
  (List.range c.fabric.out.length).filterMap fun k =>
    match c.fabric.out[k]? with
    | none => none
    | some o =>
      match o.waitsAt d with
      | none => none
      | some port =>
        if c.targetOf o d port = tgt ∧ c.mayPresent (c.fabric.out.take k) o d port tgt = true then some ⟨k, port, c.credCheck o d port⟩
        else none

/-- Insert an offer by its master's number. -/
def portIns (l : List Offer) (p : Offer) : List Offer :=
  (l.takeWhile fun q => decide (q.port ≤ p.port)) ++ [p] ++ (l.dropWhile fun q => decide (q.port ≤ p.port))

/-- R194: offers in round-robin order, from the master after the one granted last. -/
def turnOrder (last : Option Nat) (l : List Offer) : List Offer :=
  let sorted := l.foldl portIns []
  match last with
  | none => sorted
  | some k => (sorted.filter fun p => decide (k < p.port)) ++ (sorted.filter fun p => decide (p.port ≤ k))

/-- R195: does a port of die `d` park: PARK_EN is 1 and FIXLAT is not in force? -/
def Chip.parks (c : Chip) (d : Nat) : Bool := c.flag (R.FAB_CTRL d) F.FAB_CTRL_PARK_EN && !c.fixlat d

/-- Change the piece at a place in the order of issue. -/
def Chip.updPiece (c : Chip) (k : Nat) (f : OutPiece → OutPiece) : Chip :=
  { c with fabric := { c.fabric with out := c.fabric.out.modify k f } }

/-- The master port at which a piece arrives from endpoint `i` and channel `ch` of die `d`: the die and its port (Table 7.1, R192). -/
def arrivePort (d i ch : Nat) : Nat × Nat :=
  let f := farEnd d i
  (f.1, (if f.1 = 4 then 0x10 else 0x70) + 4 * f.2 + ch)

/-- Read data of an ABORT: zeros (Table 7.3). -/
def abortAnswer (p : Piece) : Nat × List Word := (3, if p.write then [] else List.replicate p.nwords 0#64)

/-- Grant one piece: at its last target port it waits to be performed; to a link it takes a credit of its channel and arrives at the next
matrix; a piece whose path is fenced is answered ABORT (R203). -/
def Chip.grantPiece (c : Chip) (k d port tgt : Nat) (parked : Bool) : Chip :=
  match c.fabric.out[k]? with
  | none => c
  | some o =>
    let c1 := { c with fabric := { c.fabric with lastGrant := mset c.fabric.lastGrant (d * 256 + tgt) port, stamp := c.fabric.stamp + 1 } }
    let g := o.grants ++ [(d, port, tgt)]
    match c.pathFrom o d with
    | [] => c1.updPiece k fun o => { o with place := none, grants := g, stamp := c.fabric.stamp, parked := parked }
    | e :: r =>
      if c.pathFenced d (e :: r) then
        c1.updPiece k fun o => { o with place := none, grants := g, stamp := c.fabric.stamp, answer := some (abortAnswer o.piece) }
      else
        let i := firstEndpoint d (e :: r)
        let ch := c.linkChan d i port
        (c1.setCredits d i ch (c.credits d i ch - 1)).updPiece k fun o =>
          { o with place := some (arrivePort d i ch), grants := g, hops := o.hops ++ [hopKey d i ch], stamp := c.fabric.stamp,
                   parked := parked }

/-- R202: pieces that the credit reserve holds are counted at their endpoint, each once for a hop. -/
def Chip.countHeld (c : Chip) (d : Nat) (l : List Offer) : Chip :=
  (l.filter fun p => p.cred == .held).foldl (fun c p =>
    match c.fabric.out[p.idx]? with
    | some o =>
      if o.held then c
      else (c.updPiece p.idx fun o => { o with held := true }).addFld (R.FAB_LINK_STAT d (firstEndpoint d (c.pathFrom o d)))
        F.FAB_LINK_STAT_HOLD_COUNT 1
    | none => c) c

/-! ### Shares at the hub (R37, R205) -/

/-- The partition whose tag a piece carries at H (R201): none for Badger's. -/
def Chip.tagOf (c : Chip) (o : OutPiece) : Option Nat := (pieceWho c o.piece).part

/-- Is a target port of H one where partitions meet: hub SRAM 0 to 3, the links, the registers? -/
def sharedPort (d tgt : Nat) : Bool := d == 4 && tgt != 4 && tgt != 0x7E && tgt != 0x7F

/-- The cycles that a partition has taken of a shared port in the present window of 1,024 cycles of H's fabric island. -/
def Chip.shareUsed (c : Chip) (tgt p : Nat) : Nat :=
  match mget? c.fabric.shares tgt with
  | some (w, l) => if w = c.fabCycleH / 1024 then mget 0 l p else 0
  | none => 0

/-- Count a cycle of a shared port. -/
def Chip.shareCount (c : Chip) (d tgt : Nat) (p : Option Nat) : Chip :=
  match p with
  | none => c
  | some p =>
    if !sharedPort d tgt then c else
    let w := c.fabCycleH / 1024
    let l := match mget? c.fabric.shares tgt with
      | some (v, l) => if v = w then l else []
      | none => []
    { c with fabric := { c.fabric with shares := mset c.fabric.shares tgt (w, mset l p (mget 0 l p + 1)) } }

/-- What a partition is still owed of its guarantee in the window: BW_SHARE / 32 of the port's cycles. -/
def Chip.shareOwed (c : Chip) (tgt p : Nat) : Nat := 32 * c.fld (R.PAR_CTRL p) F.PAR_CTRL_BW_SHARE - c.shareUsed tgt p

/-- R37: which offers may be granted. The round robin of R194 goes on until the cycles left in the window are no more than what the partitions with
pieces pending are owed; then those partitions alone are served. DESIGN CHOICE (log 77): the manual states the guarantee and no scheme. -/
def Chip.shareFilter (c : Chip) (d tgt : Nat) (l : List Offer) : List Offer :=
  if !sharedPort d tgt then l
  else
    let tag := fun (p : Offer) => (c.fabric.out[p.idx]?).bind c.tagOf
    let owed := ((List.range 4).filter fun p => l.any fun x => tag x == some p).map fun p => (p, c.shareOwed tgt p)
    if (owed.map Prod.snd).sum < 1024 - c.fabCycleH % 1024 then l
    else
      let first := l.filter fun x => owed.any fun e => tag x == some e.1 && decide (0 < e.2)
      if first.isEmpty then l else first

/-- MATRIX_PIECE_GRANT: masters of a die issue bursts, and one of its target ports grants one of the pieces presented to it: the parked master's when
it arrives at an idle parked port (R195), and the next in turn otherwise. Badger's pieces to the register target of H have a slot of their own
(R205). -/
def Chip.pieceGrant (c : Chip) (d : Nat) (l : List Piece) (tgt : Nat) : Chip :=
  let idle := !(c.fabric.out.any fun o => match o.waitsAt d with
    | some port => c.targetOf o d port == tgt
    | none => false)
  let c1 := (l.filter fun p => p.die == d).foldl Chip.issueBurst c
  let all := c1.presented d tgt
  let c2 := c1.countHeld d all
  let able := all.filter fun p => p.cred == .go
  let own := able.filter fun p => d == 4 && tgt == 0x7D && p.port == 0
  let rest := able.filter fun p => !(d == 4 && tgt == 0x7D && p.port == 0)
  let c3 := match own with
    | p :: _ =>
      let g := c2.grantPiece p.idx d p.port tgt false
      { g with fabric := { g.fabric with lastGrant := c2.fabric.lastGrant } }
    | [] => c2
  let last := mget? c.fabric.lastGrant (d * 256 + tgt)
  let park := if idle && c.parks d then rest.find? fun p => last == some p.port else none
  match park, turnOrder last (c1.shareFilter d tgt rest) with
  | some p, _ => (c3.grantPiece p.idx d p.port tgt true).shareCount d tgt ((c3.fabric.out[p.idx]?).bind c3.tagOf)
  | none, p :: _ => (c3.grantPiece p.idx d p.port tgt false).shareCount d tgt ((c3.fabric.out[p.idx]?).bind c3.tagOf)
  | none, [] => c3

/-! ## Performing a piece and its response (R196, R199, R203) -/

/-- What performing the words of a piece has left. -/
structure Done where
  chip : Chip
  mem : Memory
  resp : Resp
  data : List Word

/-- The worse of two response statuses; the first that is not OKAY stands. -/
def worse (a b : Resp) : Resp := if a = .okay then b else a

/-- One word read. -/
def pieceRead (p : Piece) (w : Who) (st : Done) (i : Nat) : Done :=
  let a := p.addr / 8 * 8 + 8 * i
  match st.chip.route w a false with
  | .deflt _ => { st with resp := worse st.resp .default, data := st.data ++ [0#64] }
  | .abort => { st with resp := worse st.resp .abort, data := st.data ++ [0#64] }
  | .register r =>
    if p.nwords = 1 then { st with data := st.data ++ [st.chip.readReg r] }
    else { st with resp := worse st.resp .default, data := st.data ++ [0#64] }
  | .word key fold loc =>
    let r := readStored st.chip st.mem key fold loc
    { st with chip := st.chip.masterHit st.mem r.hit w.port p.job.toList w.dma.isSome, resp := worse st.resp r.resp,
              data := st.data ++ [wNat r.data] }

/-- One word written under its byte enables; a register takes only a whole word alone (R482). -/
def pieceWrite (p : Piece) (w : Who) (st : Done) (e : Nat × (Word × BitVec 8)) : Done :=
  let a := p.addr / 8 * 8 + 8 * e.1
  let mask := e.2.2.toNat
  if mask = 0 then st
  else match st.chip.route w a true with
  | .deflt _ => { st with resp := worse st.resp .default }
  | .abort => { st with resp := worse st.resp .abort }
  | .register r =>
    if p.words.length = 1 ∧ mask = 255 then
      if w.badger then
        let x := badgerWrite st.chip st.mem r e.2.1
        { st with chip := x.1, mem := x.2 }
      else if w.fox then { st with chip := st.chip.foxRegWrite r e.2.1 }
      else st
    else { st with resp := worse st.resp .default }
  | .word key fold loc =>
    let x := writeWord st.chip st.mem key fold loc e.2.1.toNat mask
    { st with chip := st.chip.masterHit x.1 x.2.2 w.port p.job.toList w.dma.isSome, mem := x.1,
              resp := worse st.resp x.2.1 }

/-- Perform a piece at the target port that granted it: the default target of that die answers DEFAULT; any other target performs it. A default-target
answer is latched (R211). -/
def performPiece (c : Chip) (m : Memory) (o : OutPiece) : Done :=
  let p := o.piece
  let w := { pieceWho c p with granted := true }
  let at7F : Option Nat := match o.grants.getLast? with
    | some (d, _, 0x7F) => some d
    | _ => none
  match at7F with
  | some d => ⟨c.deferr d w p.write p.addr, m, .default, if p.write then [] else List.replicate p.nwords 0#64⟩
  | none =>
    let st : Done := ⟨c, m, .okay, []⟩
    let r := if p.write then ((List.range p.words.length).zip p.words).foldl (pieceWrite p w) st
      else (List.range p.nwords).foldl (pieceRead p w) st
    if r.resp = .default then
      let die := match c.route w p.addr p.write with | .deflt d => d | _ => w.die
      { r with chip := r.chip.deferr die w p.write p.addr, data := r.data.map fun _ => 0#64 }
    else r

/-- R328: a poisoned transfer: the request, which is then not performed and answered ABORT, or the response, which reaches its master as
UCE with data undefined and, for a write, whether it was performed open. -/
def performPoisoned (c : Chip) (m : Memory) (o : OutPiece) : Done :=
  let n := c.freeCtr
  let c1 := c.fresh
  let zeros := if o.piece.write then [] else List.replicate o.piece.nwords 0#64
  if Config.freeBool (2 * n) then ⟨c1, m, .abort, zeros⟩
  else if o.piece.write then
    if Config.freeBool (2 * n + 1) then { performPiece c1 m o with resp := .uce } else ⟨c1, m, .uce, []⟩
  else ⟨c1, m, .uce, (List.range o.piece.nwords).map fun i => Config.freeWord (n + i)⟩

/-- Is a piece granted by its last target port and not yet performed? -/
def OutPiece.due (o : OutPiece) : Bool := o.place.isNone && o.answer.isNone && !o.grants.isEmpty

/-- The target port that granted a piece last: its die and number. -/
def OutPiece.target (o : OutPiece) : Option (Nat × Nat) := o.grants.getLast?.map fun g => (g.1, g.2.2)

/-- Insert a piece by the order of its grant. -/
def stampIns (l : List OutPiece) (o : OutPiece) : List OutPiece :=
  (l.takeWhile fun q => decide (q.stamp ≤ o.stamp)) ++ [o] ++ (l.dropWhile fun q => decide (q.stamp ≤ o.stamp))

/-- R169: a piece to a stack that answers no request has no answer. -/
def Chip.pieceSilent (c : Chip) (o : OutPiece) : Bool :=
  (match o.target with | some (_, 0x7F) => false | _ => true) && !o.poisoned
    && (List.range (max 1 (if o.piece.write then o.piece.words.length else o.piece.nwords))).any fun i =>
      c.silent (pieceWho c o.piece) (o.piece.addr + 8 * i)

/-- Perform one piece: it has its answer, unless none comes. -/
def performOne (s : Chip × Memory) (o : OutPiece) : Chip × Memory :=
  if s.1.pieceSilent o then s else
  let x : Done := if o.poisoned then performPoisoned s.1 s.2 o else performPiece s.1 s.2 o
  let upd := fun (q : OutPiece) => if q.due && q.stamp == o.stamp then { q with answer := some (respCode x.resp, x.data) } else q
  ({ x.chip with fabric := { x.chip.fabric with out := x.chip.fabric.out.map upd } }, x.mem)

/-- R199: a target port performs the pieces that it has granted, in the order of its grants, up to and with the given one. -/
def performUpTo (c : Chip) (m : Memory) (o : OutPiece) : Chip × Memory :=
  if !o.due then (c, m)
  else ((c.fabric.out.filter fun q => q.due && q.target == o.target && decide (q.stamp ≤ o.stamp)).foldl stampIns []).foldl performOne (c, m)

/-- PIECE_RESPONSE: the response of the oldest piece of a master and ID returns, once its last target port has granted it: the piece leaves the
outstanding ones. A piece that has no answer stays (R169). A piece answered with ABORT was never performed and discards its job (R203, Table 12.4). -/
def pieceResponse (c : Chip) (m : Memory) (die port id : Nat) : Chip × Memory :=
  let mine := fun (o : OutPiece) => o.piece.die == die && o.piece.port == port && o.piece.id == id
  match c.fabric.out.find? mine with
  | none => (c, m)
  | some o =>
    if o.answer.isNone && !o.due then (c, m)
    else
      let r := performUpTo c m o
      let ans := (r.1.fabric.out.find? mine).bind OutPiece.answer
      if ans.isNone then r else
      let c1 := { r.1 with fabric := { r.1.fabric with out := dropFirst mine r.1.fabric.out, lastResp := ans } }
      let aborted := match ans with | some (3, _) => true | _ => false
      (if aborted then c1.discardJobs r.2 o.piece.job.toList c1.faults.linkCause.1 c1.faults.linkCause.2 else c1, r.2)

/-! ## Replays on a hop (R327, R328) -/

/-- The fault status inst, location, level and fenced unit of a hop (Table 13.1, Table 13.4). -/
def hopPlace (h : Hop) : Nat × Nat × Nat × Nat :=
  match h.code with
  | 1 =>
    let n := 12 * h.die + h.unit
    let t := 2 * (h.port % 8) + h.ch % 2
    (n, h.die * 2 ^ 28 + h.unit * 2 ^ 24 + t * 2 ^ 20 + 0xFFFFF, 3, h.port % 8)
  | 2 => (12 * h.die + h.unit, cluLoc (12 * h.die + h.unit), 4, 0)
  | 3 => (matInst h.die, if h.die = 4 then 0xEA0FFFFF else h.die * 2 ^ 28 + 0xF0FFFFF, 3, 0)
  | 4 => (linkInst h.die, if h.die = 4 then 0xEA0FFFFF + (h.unit + 1) * 2 ^ 20 else h.die * 2 ^ 28 + 0xF1FFFFF, 3,
      3 * h.unit + h.ch)
  | 5 => (53 + 7 * h.die, h.die * 2 ^ 28 + 0xF4FFFFF, 3, 4 * h.unit + h.ch)
  | _ => (76 + min 10 h.unit, 0xE0FFFFFF + min 10 h.unit * 2 ^ 24, 4, 0)

/-- A number for a hop. -/
def hopNo (h : Hop) : Nat := (((h.code * 8 + h.die) * 16 + h.unit) * 4 + h.ch) * 256 + h.port

/-- The detection of a hop. -/
def hopDet (src : Nat) (h : Hop) (tries : Nat) : Detection :=
  let x := hopPlace h
  ⟨src, x.1, x.2.1, x.2.2.1, h.code * 2 ^ 16 + h.port % 256 * 2 ^ 8 + tries, h.jobs, x.2.2.2, 0, false, false⟩

/-- R328: a poisoned element in a tile crossbar stops the stream of the cluster's job, as an uncorrectable read does: the job owns the transfer. -/
def Chip.hopOwners (c : Chip) (h : Hop) : Hop :=
  if h.code = 1 then { h with jobs := (h.jobs ++ c.jobOn (12 * h.die + h.unit)).eraseDups } else h

/-- Count a successful replay: on the link endpoint, or in ECC_COUNT of the die and, for a crossbar, in XBR_STAT. -/
def Chip.countReplay (c : Chip) (h : Hop) : Chip :=
  match h.code with
  | 4 => c.addFld (R.FAB_LINK_STAT h.die h.unit) F.FAB_LINK_STAT_REPLAY_COUNT 1
  | 1 =>
    let t := 16 * (12 * h.die + h.unit) + 2 * (h.port % 8) + h.ch % 2
    (c.addFld (R.ECC_COUNT h.die) F.ECC_COUNT_HOP_CE 1).addFld (R.XBR_STAT t) F.XBR_STAT_REPLAYS 1
  | _ => if h.die < 4 then c.addFld (R.ECC_COUNT h.die) F.ECC_COUNT_HOP_CE 1 else c

/-- The keys of a link channel at its two ends. -/
def chanKeys (d i ch : Nat) : List Nat := [hopKey d i ch, hopKey (farEnd d i).1 (farEnd d i).2 ch]

/-- Poison the outstanding piece of a master that crosses the hop; at a quarantined boundary it is answered ABORT instead
(R328, R367). -/
def Chip.poison (c : Chip) (h : Hop) (abort : Bool) : Chip :=
  let hit := fun (o : OutPiece) => o.answer.isNone
    && (match h.code with
        | 1 => false
        | 3 => o.grants.any fun g => g.1 == h.die && g.2.1 == h.port
        | 4 => o.piece.port == h.port && o.hops.any (chanKeys h.die h.unit h.ch).contains
        | _ => o.piece.port == h.port && (o.piece.die == h.die || o.grants.any fun g => g.1 == h.die))
  let upd := fun (o : OutPiece) => if abort then { o with answer := some (abortAnswer o.piece) } else { o with poisoned := true }
  let pre := c.fabric.out.takeWhile fun o => !hit o
  let rest := c.fabric.out.dropWhile fun o => !hit o
  { c with fabric := { c.fabric with out := pre ++ (match rest with | o :: r => upd o :: r | [] => []) } }

/-- HOP_REPLAY: one replay attempt ends. A replay that arrives intact is source 0x01; the third that fails is exhausted: source
0x03 when the hop was exhausted less than 10^9 cycles of its island before, source 0x02 otherwise. -/
def Chip.hopReplay (c : Chip) (m : Memory) (h : Hop) (ok : Bool) : Chip :=
  let k := hopNo h
  let tries := mget 0 c.fabric.hopTries k
  let clear := { c with fabric := { c.fabric with hopTries := mdel c.fabric.hopTries k } }
  if ok then (clear.countReplay h).detect m (hopDet 0x01 h (min 2 tries))
  else if tries < 2 then { c with fabric := { c.fabric with hopTries := mset c.fabric.hopTries k (tries + 1) } }
  else
    let now := c.instCycle (hopPlace h).1
    let again := match mget? c.faults.hopExh k with | some t => decide (now < t + recentSpan) | none => false
    let d := hopDet (if again then 0x03 else 0x02) h 3
    let csq := clear.consequential d
    let c1 := if csq then clear
      else { clear with faults := { clear.faults with hopExh := mset clear.faults.hopExh k now } }
    let c2 := if h.die < 4 then c1.addFld (R.ECC_COUNT h.die) F.ECC_COUNT_HOP_EXH 1 else c1
    (c2.poison h csq).detect m { d with jobs := (c2.hopOwners h).jobs }

/-! ## Loss of training -/

/-- FAB_LINK_STAT.UP of both ends of a link. -/
def Chip.setLinkUp (c : Chip) (d i v : Nat) : Chip :=
  let f := farEnd d i
  (c.setFld (R.FAB_LINK_STAT d i) F.FAB_LINK_STAT_UP v).setFld (R.FAB_LINK_STAT f.1 f.2) F.FAB_LINK_STAT_UP v

/-- FAB_LINK_STAT.UP of a link after a channel has stopped retraining: the link is in service when it is not fenced and none of its channels
retrains. -/
def Chip.settleLink (c : Chip) (d i ch : Nat) : Chip :=
  let c1 := { c with fabric := { c.fabric with untrained := c.fabric.untrained.filter fun k => !(chanKeys d i ch).contains k } }
  let busy := (List.range 3).any fun j => (chanKeys d i j).any c1.fabric.untrained.contains
  if c1.flag (R.FAB_LINK_STAT d i) F.FAB_LINK_STAT_FENCED || busy then c1 else c1.setLinkUp d i 1

/-- LOSS_OF_TRAINING: 0, a channel loses training and retrains: UP clears; 1, it is restored within 1 ms; 2, it is not: source 0x41, which fences
the channel. The link is up again when no channel of it retrains, unless it is fenced. -/
def Chip.trainLoss (c : Chip) (m : Memory) (d i ch how : Nat) : Chip :=
  if d < 4 ∧ 2 < i then c
  else match how with
  | 0 => { c with fabric := { c.fabric with untrained := hopKey d i ch :: c.fabric.untrained } }.setLinkUp d i 0
  | 1 => c.settleLink d i ch
  | _ =>
    let key := hopKey d i ch
    let f := farEnd d i
    let jobs := ((c.fabric.out.filter fun o => o.hops.contains key || o.hops.contains (hopKey f.1 f.2 ch)).filterMap
      fun o => o.piece.job).eraseDups
    let loc := if d = 4 then 0xEA0FFFFF + (i + 1) * 2 ^ 20 else d * 2 ^ 28 + 0xF1FFFFF
    (c.detect m ⟨0x41, linkInst d, loc, 3, i * 2 ^ 8, jobs, 3 * i + ch, 0, false, false⟩).settleLink d i ch

/-! ## Meanings -/

/-- MATRIX_PIECE_GRANT (R194). -/
def execMatrixPieceGrant (bursts : List Piece) (tgt : MatrixPort) (s : State) : Out :=
  s.goChip (s.chip.pieceGrant tgt.die.val bursts tgt.port)

/-- PIECE_RESPONSE (R196). -/
def execPieceResponse (die : Fin 5) (port id : Nat) (s : State) : Out :=
  let r := pieceResponse s.chip s.mem die.val port id
  s.goBoth r.1 r.2

/-- LINK_CREDIT_RETURN (R201): at most 32 credits. -/
def execLinkCreditReturn (die : Fin 5) (endpoint : Fin 4) (ch : Fin 3) (s : State) : Out :=
  let c := s.chip
  let n := c.credits die.val endpoint.val ch.val
  s.goChip (if die.val < 4 ∧ 2 < endpoint.val then c
    else c.setCredits die.val endpoint.val ch.val (min 32 (n + 1)))

/-- HOP_REPLAY (R327, R328). -/
def execHopReplay (hop : Hop) (ok : Bool) (s : State) : Out := s.goChip (s.chip.hopReplay s.mem hop ok)

/-- LOSS_OF_TRAINING (R357, source 0x41). -/
def execLossOfTraining (die : Fin 5) (endpoint : Fin 4) (ch : Fin 3) (how : Fin 3) (s : State) : Out :=
  s.goChip (s.chip.trainLoss s.mem die.val endpoint.val ch.val how.val)

end Sys2Proof.Machine
end

