-- ==== Sys2Proof/Machine/FaultRows.lean ====
section
/-! DEFINITION. Machine/FaultRows.lean: the rows of chapter 13 and the restart of the Badger pair: detections (R354, R355), the flash
fault log (R369), the end of a quarantine (R366), and R323 with R416. -/

namespace Sys2Proof.Machine

/-! ## Fault log (R369) -/

/-- The log entry of an inst's record. -/
def Chip.logEntry (c : Chip) (i : Nat) : LogEntry :=
  { stat := c.reg (R.FLT_STAT i), info := c.readReg (R.FLT_INFO i), time := c.reg (R.FLT_TIME i), count := c.reg (R.FLT_COUNT i),
    fence := c.reg (R.FLT_FENCE i), gen := (c.viewEntry i).2.2.2, hubTime := c.faults.haltCycle }

/-- The insts whose records are logged: the module record and every latched FTL record. -/
def Chip.logged (c : Chip) : List Nat :=
  90 :: (List.range 90).filter fun i =>
    c.flag (R.FLT_STAT i) F.FLT_STAT_VALID && c.fld (R.FLT_STAT i) F.FLT_STAT_CLASS == 3

/-- R369: Terind copies the records to flash once; before it runs (R429) no copy is made. -/
def Chip.copyLog (c : Chip) : Chip :=
  let st := c.fld R.HUB_BOOT_STAT F.HUB_BOOT_STAT_STAGE
  if !c.faults.halted || decide (st < 5) || st == 0xF then c
  else
    let new := (c.logged.map c.logEntry).filter fun e => !c.flash.log.contains e
    { c with flash := { c.flash with log := c.flash.log ++ new } }

/-! ## Restart of the Badger pair (R323, R416, R427) -/

/-- The commands that Badger holds unanswered. -/
def Chip.unanswered (c : Chip) : List Cmd :=
  (c.queues.waiting.filter Queued.ready).map Queued.cmd ++ c.mgmt.trans.filterMap (fun t => t.2.cmd) ++ c.mgmt.long.map LongCmd.cmd
    ++ c.mgmt.retireWait ++ c.mgmt.pwrCmd.toList

/-- Forget the commands; what the hardware runs goes on. -/
def Chip.forgetCmds (c : Chip) : Chip :=
  let c1 := { c with
    queues := { c.queues with waiting := [] }, mbxA := { c.mbxA with early := [] }, mbxB := { c.mbxB with early := [] },
    mgmt := { c.mgmt with trans := c.mgmt.trans.map fun t => (t.1, { t.2 with cmd := none }), long := [], retireWait := [],
                          pwrCmd := none } }
  (List.range 4).foldl (fun c d => c.setDom d { c.dom d with subCmd := none }) c1

/-- A Badger core as the Terind image starts on it; Terind's own state lies in hub SRAM. -/
def terindCore : Core := { run := .executing, pc := 0x500000000000 + Config.terindEntry % 0x400000 / 4 * 4, mulfix := true }

/-- R416: a command that was only partly received loses its framing. -/
def Chip.dropPartial (c : Chip) (ch : Nat) : Chip :=
  if (c.mbx ch).partialWords.isEmpty then c else (c.dropPart ch).loseFraming ch

/-- BADGER_RESTART: the self-test of both cores, then the restart, or source 0x51. -/
def Chip.badgerRestart (c : Chip) (m : Memory) (ok0 ok1 : Bool) : Chip :=
  if !c.badger.restarting then c
  else if !(ok0 && ok1) then c.detect m (badgerDetection 0x51 false)
  else
    let cmds := c.unanswered
    let c1 := cmds.foldl (fun c k => c.respond k St.aborted []) c.forgetCmds
    let c2 := (c1.dropPartial 0).dropPartial 1
    let c3 := (c2.setCore 144 terindCore).setCore 145 terindCore
    let ready := c3.flag R.HUB_BOOT_STAT F.HUB_BOOT_STAT_READY
    let c4 := { c3 with badger := { c3.badger with restarting := false },
                        mbxA := { c3.mbxA with accept := ready }, mbxB := { c3.mbxB with accept := ready } }
    c4.raise 1 (min 65535 cmds.length)

/-! ## Timing (sources 0x62 and 0x63) -/

/-- Table 13.7: source 0x62 names the partition whose paths a protective clock change reached, and source 0x63 the domain of a throttled
stack: TIMING_VOID of that partition when FIXLAT is in force, with the degraded condition. -/
def Chip.timingOf (c : Chip) (d : Detection) : Chip :=
  if c.faults.halted || d.inj then c
  else match d.source with
    | 0x62 => if d.unit < 4 ∧ c.parEn d.unit = true then c.timingVoid d.unit else c
    | 0x63 =>
      let die := (d.inst - 53) / 7
      match c.partOf die with
      | some p => if c.fixlat die then c.timingVoid p else c
      | none => c
    | _ => c

/-! ## Meanings -/

/-- FAULT_DETECTION (R354, R355): the detections of one cycle; nothing is detected in Off. -/
def execFaultDetection (ds : List Detection) (s : State) : Out :=
  let l := ds.map Detection.normal
  s.goChip (if s.chip.powered then l.foldl Chip.timingOf (s.chip.detectAll s.mem l) else s.chip)

/-- HALT_LOG_COPY (R369). -/
def execHaltLogCopy (s : State) : Out := s.goChip s.chip.copyLog

/-- QUARANTINE_END (R366): the quarantine of a boundary whose last count has reached 4,096 cycles of its island ends. -/
def execQuarantineEnd (b : Nat) (s : State) : Out :=
  s.goChip (if s.chip.quarantined b then s.chip
    else { s.chip with faults := { s.chip.faults with quar := mdel s.chip.faults.quar b } })

/-- BADGER_RESTART (R323). -/
def execBadgerRestart (ok0 ok1 : Bool) (s : State) : Out := s.goChip (s.chip.badgerRestart s.mem ok0 ok1)

end Sys2Proof.Machine
end

