-- ==== Sys2Proof/Machine/StreamCalc.lean ====
section
/-! DEFINITION. Machine/StreamCalc.lean: what a unit computes for one block: the operands of its elements (R60-R62, R87),
the nodes (R98, R102, R528), reductions and scans (R107-R109) and the attribution of flags to elements (R142, R149). -/

namespace Sys2Proof.Machine

/-! ## Operands -/

/-- Why a block's operands end: a stream fault, with the die whose default target answered, an uncorrectable word, or a
fenced path. -/
inductive Halt where
  | fault (f : SFault) (die : Option Nat) (write : Bool)
  | uce
  | abort
  deriving DecidableEq, Repr

/-- What a unit's reads leave: checked words in order, the word each slot read last, the dies and addresses of default-target
answers to reads that are no stream fault (R62), and why reading ended. -/
structure Fetch where
  hits : List Hit := []
  last : List (Nat × Nat) := []
  quiet : List (Nat × Nat) := []
  halt : Option Halt := none
  deriving DecidableEq, Repr

/-- Table 3.6: the cause of a DEFAULT answer: a retired page, or another address of the default target. -/
def Chip.defaultCause (c : Chip) (a : Nat) : Nat :=
  match locate (a / 8 * 8) with
  | .dram d off => if c.pageRetired d (off / 65536) then 0x23 else 0x24
  | _ => 0x24

/-- Stop with a stream fault that no access caused. -/
def Fetch.stop (f : Fetch) (h : Halt) : Fetch := if f.halt.isNone then { f with halt := some h } else f

/-- Read one element of `size` bytes at `a` for slot `s` of element `e`. Neighbouring elements share one read of their
word. -/
def readAt (c : Chip) (m : Memory) (w : Who) (e s a size : Nat) (f : Fetch) : Nat × Fetch :=
  if f.halt.isSome then (0, f)
  else match c.route w a false with
    | .abort => (0, f.stop .abort)
    | .deflt die => (0, f.stop (.fault ⟨e, c.defaultCause a, s, a⟩ (some die) false))
    | .register r =>
      if size = 8 then ((c.readReg r).toNat, f) else (0, f.stop (.fault ⟨e, 0x24, s, a⟩ (some w.die) false))
    | .word key fold loc =>
      let r := readStored c m key fold loc
      let seen := mget? f.last s == some (a / 8)
      let f1 := { f with hits := if seen then f.hits else f.hits ++ r.hit.toList, last := mset f.last s (a / 8) }
      if r.resp = .okay then (r.data / 2 ^ (8 * (a % 8)) % 2 ^ (8 * size), f1) else (0, f1.stop .uce)

/-- Address of element `i` of a strided word. -/
def stridedAddr (w size i : Nat) : Nat := ((opBase w : Int) + (i : Int) * opStride w * size).toNat % 2 ^ 48

/-- Element `i` of an auxiliary stream, if in use. -/
def readAux (c : Chip) (m : Memory) (w : Who) (v : StreamView) (i k : Nat) (f : Fetch) : Nat × Fetch :=
  if v.auxUse k = 0 then (0, f) else readAt c m w i (k - 1) (stridedAddr (v.word k) (v.auxSize k) i) (v.auxSize k) f

/-- The address of element `i` of a slot, or the address that an index beyond the extent would have reached. -/
def slotAddr (v : StreamView) (s i x y : Nat) : Nat × Bool :=
  let size := tySize (v.slotTy s)
  match v.index s with
  | none => (stridedAddr (v.op s) size (if v.single s then 0 else i), true)
  | some k =>
    let j := if k = 6 then x else y
    ((opBase (v.op s) + j * size) % 2 ^ 48, decide (j < opExtent (v.op s)))

/-- Read source slot `s` of an active element. -/
def readSrc (c : Chip) (m : Memory) (w : Who) (v : StreamView) (i x y s : Nat) (f : Fetch) : Nat × Fetch :=
  if !v.uses s then (0, f)
  else
    let a := slotAddr v s i x y
    if !a.2 then (0, f.stop (.fault ⟨i, 0x21, s, a.1⟩ none false))
    else readAt c m w i s a.1 (tySize (v.slotTy s)) f

/-- The destination address of an active element, with the faults of its write. -/
def destAddr (c : Chip) (w : Who) (v : StreamView) (i x y s : Nat) (f : Fetch) : Nat × Fetch :=
  if !v.uses s || v.single s then (0, f)
  else
    let a := slotAddr v s i x y
    if !a.2 then (0, f.stop (.fault ⟨i, 0x22, s, a.1⟩ none true))
    else match c.route w a.1 true with
      | .abort => (a.1, f.stop .abort)
      | .deflt die => (a.1, f.stop (.fault ⟨i, c.defaultCause a.1, s, a.1⟩ (some die) true))
      | .register _ => (a.1, if tySize (v.slotTy s) = 8 then f else f.stop (.fault ⟨i, 0x24, s, a.1⟩ (some w.die) true))
      | .word _ _ _ => (a.1, f)

/-- R62: the index element of a masked-off element is read too, and an answer DEFAULT to that read is no stream fault. -/
def Fetch.forgive (before f : Fetch) : Fetch :=
  match f.halt with
  | some (.fault sf die _) => { f with halt := before.halt, quiet := f.quiet ++ die.toList.map fun d => (d, sf.addr) }
  | _ => f

/-- Everything element `i` needs: the mask first, which says whether the element takes part, then X, Y, A, B, C, D0, D1. -/
def readElem (c : Chip) (m : Memory) (w : Who) (v : StreamView) (i : Nat) (f : Fetch) : Elem × Fetch :=
  let mr := match v.mask with
    | some k => readAux c m w v i k f
    | none => (1, f)
  let mk := mr.1
  let act := match v.mask with
    | some _ => (mk != 0) != bit (v.word 0) 48
    | none => true
  let aux := fun (k : Nat) (f : Fetch) => if v.mask = some k then (mk, f) else readAux c m w v i k f
  let x := aux 6 mr.2
  let y := aux 7 (if act then x.2 else mr.2.forgive x.2)
  if !act then ({ no := i, act := false, mask := mk }, if mr.2.halt.isSome then mr.2 else mr.2.forgive y.2)
  else
    let a := readSrc c m w v i x.1 y.1 0 y.2
    let b := readSrc c m w v i x.1 y.1 1 a.2
    let d := readSrc c m w v i x.1 y.1 2 b.2
    let d0 := destAddr c w v i x.1 y.1 3 d.2
    let d1 := destAddr c w v i x.1 y.1 4 d0.2
    ({ no := i, act := true, mask := mk, src := [a.1, b.1, d.1], dst := [d0.1, d1.1] }, d1.2)

/-- The elements from `i` on, up to the one at which reading ends. -/
def readElems (c : Chip) (m : Memory) (w : Who) (v : StreamView) : Nat → Nat → Fetch → List Elem × Fetch
  | 0, _, f => ([], f)
  | k + 1, i, f =>
    let r := readElem c m w v i f
    if r.2.halt.isSome then ([], r.2)
    else
      let t := readElems c m w v k (i + 1) r.2
      (r.1 :: t.1, t.2)

/-! ## Combining with empty values (R107) -/

/-- An optional value and the flags of the step that formed it. -/
abbrev OptStep := Option Nat × Nat

/-- `a ⊕ b`, where an empty value is no operation. -/
def combOpt (f : Nat → Nat → Nat × Nat) : Option Nat → Option Nat → OptStep
  | some a, some b => let r := f a b; (some r.1, r.2)
  | some a, none => (some a, 0)
  | none, b => (b, 0)

/-- An operand as it enters the tree: flushed under FTZ unless it is a chain constant (R124), a signalling NaN quietened with IV. -/
def enterTree (t : Nat) (ftz const : Bool) (x : Nat) : Nat × Nat :=
  if isFp t then
    let y := readFp t (ftz && !const) x
    if fpSnan t y then (quieten t y, fIV) else (y, 0)
  else (x, 0)

/-- Flags given to elements: pairs of element number and flags. -/
abbrev Marks := List (Nat × Nat)

/-- The last active element. -/
def lastActive (es : List Elem) : Option Nat := ((es.filter Elem.act).getLast?).map Elem.no

/-- Marks at an element, when there is one and a flag is set. -/
def markAt (e : Option Nat) (fl : Nat) : Marks :=
  match e with
  | some i => if fl = 0 then [] else [(i, fl)]
  | none => []

/-! ## Reductions (R107) -/

/-- The elements of lane `l`: positions l, l + 16, … of the block. -/
def laneSeq {α : Type} (xs : List α) (l : Nat) : List α := (List.range 32).filterMap fun j => xs[16 * j + l]?

/-- Accumulate a lane sequence into four accumulators. -/
def laneAcc (f : Nat → Nat → Nat × Nat) :
    List (Elem × Option Nat) → Nat → List (Option Nat) → Marks → List (Option Nat) × Marks
  | [], _, acc, mk => (acc, mk)
  | (e, x) :: r, j, acc, mk =>
    let s := combOpt f (acc.getD (j % 4) none) x
    let s := match x with | some _ => s | none => (acc.getD (j % 4) none, 0)
    laneAcc f r (j + 1) (lset acc (j % 4) s.1) (mk ++ markAt (some e.no) s.2)

/-- (acc0 ⊕ acc1) ⊕ (acc2 ⊕ acc3). -/
def foldAcc (f : Nat → Nat → Nat × Nat) (acc : List (Option Nat)) : OptStep :=
  let a := combOpt f (acc.getD 0 none) (acc.getD 1 none)
  let b := combOpt f (acc.getD 2 none) (acc.getD 3 none)
  let r := combOpt f a.1 b.1
  (r.1, flOr (flOr a.2 b.2) r.2)

/-- One tree level: lane l takes lane l ⊕ lane l + w for l a multiple of 2w. -/
def treeLevel (f : Nat → Nat → Nat × Nat) (w : Nat) (s : List (Option Nat) × Nat) : List (Option Nat) × Nat :=
  (List.range 16).foldl (fun s l =>
    if l % (2 * w) = 0 then
      let r := combOpt f (s.1.getD l none) (s.1.getD (l + w) none)
      (lset s.1 l r.1, flOr s.2 r.2)
    else s) s

/-- The partial of a block and its marks. -/
def blockPart (f : Nat → Nat → Nat × Nat) (xs : List (Elem × Option Nat)) (lastE : Option Nat) : Option Nat × Marks :=
  let lanes := (List.range 16).map fun l => laneAcc f (laneSeq xs l) 0 [none, none, none, none] []
  let heads := lanes.map fun a => foldAcc f a.1
  let s := [1, 2, 4, 8].foldl (fun s w => treeLevel f w s) (heads.map Prod.fst, heads.foldl (fun a h => flOr a h.2) 0)
  ((s.1.getD 0 none), (lanes.map Prod.snd).flatten ++ markAt lastE s.2)

/-- The combination of block partials in block order; each step is marked at the last active element of its block. -/
def joinParts (f : Nat → Nat → Nat × Nat) : List (Option Nat × Option Nat) → Option Nat → Marks → Option Nat × Marks
  | [], acc, mk => (acc, mk)
  | (p, l) :: r, acc, mk =>
    let s := combOpt f acc p
    joinParts f r s.1 (mk ++ markAt l s.2)

/-! ## Scans (R109) -/

/-- The element that a row-level step of lane `l` is attributed to (R149). -/
def rowOwner (row : List Elem) (l : Nat) (lastE : Option Nat) : Option Nat :=
  match (row.drop l).find? Elem.act with
  | some e => some e.no
  | none => lastE

/-- One level of the in-row prefix. -/
def rowLevel (f : Nat → Nat → Nat × Nat) (row : List Elem) (lastE : Option Nat) (w : Nat) (s : List (Option Nat) × Marks) :
    List (Option Nat) × Marks :=
  let steps := (List.range 16).map fun l =>
    if w ≤ l then combOpt f (s.1.getD (l - w) none) (s.1.getD l none) else (s.1.getD l none, 0)
  (steps.map Prod.fst,
   s.2 ++ ((steps.zip (List.range 16)).map fun t => markAt (rowOwner row t.2 lastE) t.1.2).flatten)

/-- One row: local values of its elements, the value carried on, marks. -/
def scanRow (f : Nat → Nat → Nat × Nat) (row : List (Elem × Option Nat)) (lastE v : Option Nat) :
    List (Option Nat) × Option Nat × Marks :=
  let es := row.map Prod.fst
  let q0 := (List.range 16).map fun l => ((row[l]?).map Prod.snd).getD none
  let q := [1, 2, 4, 8].foldl (fun s w => rowLevel f es lastE w s) (q0, [])
  let loc := (row.zip q.1).map fun t => if t.1.1.act then (combOpt f v t.2, t.1.1.no) else ((none, 0), t.1.1.no)
  let nv := combOpt f v (q.1.getD 15 none)
  (loc.map fun t => t.1.1, nv.1, q.2 ++ (loc.map fun t => markAt (some t.2) t.1.2).flatten ++ markAt lastE nv.2)

/-- The rows of a block. -/
def scanRows (f : Nat → Nat → Nat × Nat) (xs : List (Elem × Option Nat)) (lastE : Option Nat) :
    Nat → Nat → Option Nat → List (Option Nat) × Option Nat × Marks
  | 0, _, v => ([], v, [])
  | k + 1, r, v =>
    let s := scanRow f ((xs.drop (16 * r)).take 16) lastE v
    let t := scanRows f xs lastE k (r + 1) s.2.1
    (s.1 ++ t.1, t.2.1, s.2.2 ++ t.2.2)

/-- A scan node over a block with carry `cb`: values, total, marks. -/
def scanBlock (f : Nat → Nat → Nat × Nat) (xs : List (Elem × Option Nat)) (lastE cb : Option Nat) :
    List Nat × Option Nat × Marks :=
  let s := scanRows f xs lastE 32 0 none
  let out := (xs.zip s.1).map fun t => (combOpt f cb t.2, t.1.1)
  (out.map fun t => t.1.1.getD 0, s.2.1,
   s.2.2 ++ (out.map fun t => if t.2.act then markAt (some t.2.no) t.1.2 else []).flatten)

/-! ## Nodes -/

/-- What the tree node of a block leaves for the home unit: partial or total, the carry that entered the block, and the
last active element. -/
structure TreePart where
  val : Option Nat
  carry : Option Nat
  last : Option Nat
  deriving DecidableEq, Repr

/-- Options as words: a presence word and a value. -/
def optWords (o : Option Nat) : List Word := match o with | some v => [1#64, wNat v] | none => [0#64, 0#64]

/-- A part as its six words. -/
def TreePart.words (p : TreePart) : List Word := optWords p.val ++ optWords p.carry ++ optWords p.last

/-- Option `k` of a part's words. -/
def optOf (l : List Word) (k : Nat) : Option Nat :=
  if l.getD (2 * k) 0#64 = 1#64 then some (l.getD (2 * k + 1) 0#64).toNat else none

/-- A part from its words. -/
def partOfWords (l : List Word) : TreePart := ⟨optOf l 0, optOf l 1, optOf l 2⟩

/-- The combining step of node k. -/
def StreamView.comb (v : StreamView) (k : Nat) : Nat → Nat → Nat × Nat :=
  combine (v.ce.node k).op (v.ce.nodeTy k v.et) v.rm v.ftz

/-- The value of source `s` for element `e` at position `i`, given the outputs of the nodes below (Table 4.4). A source that names no earlier
elementwise output, against R102, is open (log 84). -/
def srcVal (v : StreamView) (outs : List (List Nat)) (e : Elem) (i s : Nat) : Nat :=
  if s = 0 then 0
  else if s ≤ 3 then e.src.getD (s - 1) 0
  else if s = 4 then e.mask
  else if s = 5 then e.no
  else if isConst s then (v.ce.consts.getD (s - 8) 0#64).toNat
  else ((if s < 0x10 then [] else outs.getD (s - 0x10) [])[i]?).getD (Config.openNode [2, s, i, e.no])

/-- Source `j` of node k as the node reads it. -/
def nodeSrc (v : StreamView) (outs : List (List Nat)) (e : Elem) (i k j : Nat) : Nat :=
  let nd := v.ce.node k
  let s := nd.srcs.getD j 0
  readOperand nd.op (v.ce.readTy k j v.et) v.ftz (isConst s) (srcVal v outs e i s)

/-- What the nodes of a block leave: outputs by node, marks of live nodes, the tree's part. -/
structure NodesOut where
  outs : List (List Nat) := []
  marks : Marks := []
  part : Option TreePart := none
  deriving DecidableEq, Repr

/-- Node k over the elements of a block; `prev` is the part of the block before, for a scan. -/
def evalNode (v : StreamView) (es : List Elem) (prev : Option TreePart) (st : NodesOut) (k : Nat) : NodesOut :=
  let nd := v.ce.node k
  let ty := v.ce.nodeTy k v.et
  let idx := es.zip (List.range es.length)
  let lastE := lastActive es
  if !v.ce.live.contains k then { st with outs := st.outs ++ [[]] }
  else if isReduction nd.op || isScan nd.op then
    let ent := idx.map fun p =>
      if p.1.act then (p.1, some (enterTree ty v.ftz (isConst (nd.srcs.getD 0 0)) (nodeSrc v st.outs p.1 p.2 k 0))) else (p.1, none)
    let enterMarks := (ent.map fun p => match p.2 with | some x => markAt (some p.1.no) x.2 | none => []).flatten
    let xs := ent.map fun p => (p.1, p.2.map Prod.fst)
    if isReduction nd.op then
      let r := blockPart (v.comb k) xs lastE
      { outs := st.outs ++ [[]], marks := st.marks ++ enterMarks ++ r.2, part := some ⟨r.1, none, lastE⟩ }
    else
      let cb := match prev with
        | some p => combOpt (v.comb k) p.carry p.val
        | none => (none, 0)
      let r := scanBlock (v.comb k) xs lastE cb.1
      let mk := st.marks ++ enterMarks ++ r.2.2 ++ markAt (prev.bind TreePart.last) cb.2
      { outs := st.outs ++ [r.1], marks := mk, part := some ⟨r.2.1, cb.1, lastE⟩ }
  else
    let rs := idx.map fun p =>
      if p.1.act then
        (nodeOp nd.op ty (v.ce.readTy k 0 v.et) v.rm v.ftz (nodeSrc v st.outs p.1 p.2 k 0) (nodeSrc v st.outs p.1 p.2 k 1)
          (nodeSrc v st.outs p.1 p.2 k 2), p.1.no)
      else ((0, 0), p.1.no)
    { st with outs := st.outs ++ [rs.map fun r => r.1.1],
              marks := st.marks ++ (rs.map fun r => markAt (some r.2) r.1.2).flatten }

/-- The nodes of a chain over a block, in order. -/
def evalNodes (v : StreamView) (es : List Elem) (prev : Option TreePart) : NodesOut :=
  (List.range (v.ce.last + 1)).foldl (fun st k => evalNode v es prev st k) {}

/-! ## Flags and intervals (R143, R149) -/

/-- Sticky flags with the trap interval so far. -/
structure FlagAcc where
  flags : Nat
  trap : Option (Nat × Nat)
  deriving DecidableEq, Repr

/-- One mark: its flags are sticky; an enabled one widens the interval, by whole blocks unless PRECISE. -/
def FlagAcc.mark (v : StreamView) (en : Nat) (a : FlagAcc) (m : Nat × Nat) : FlagAcc :=
  let fl := flOr a.flags m.2
  if Nat.land m.2 en = 0 then { a with flags := fl }
  else
    let first := if v.precise then m.1 else m.1 / 512 * 512
    let last := if v.precise then m.1 else min (v.n - 1) (m.1 / 512 * 512 + 511)
    match a.trap with
    | some t => ⟨fl, some (min t.1 first, max t.2 last)⟩
    | none => ⟨fl, some (first, last)⟩

/-- All marks. -/
def FlagAcc.markAll (v : StreamView) (en : Nat) (a : FlagAcc) (l : Marks) : FlagAcc := l.foldl (FlagAcc.mark v en) a

/-! ## Result words -/

/-- Entry number of a result word in its commit buffer (Table 12.2). -/
def cmtEntry (dest half i : Nat) : Nat := dest * 1024 + half * 512 + i

/-- The result words of an elementwise destination for a block. -/
def resWords (v : StreamView) (es : List Elem) (outs : List (List Nat)) (d half : Nat) : List ResWord :=
  let size := tySize (v.slotTy (3 + d))
  let vals := outs.getD (v.ce.destNode d) []
  let act := (es.zip (List.range es.length)).filter fun p => p.1.act
  (act.zip (List.range act.length)).map fun p =>
    let x := vals.getD p.1.2 0
    ⟨p.1.1.no, p.1.1.dst.getD d 0, x, size, codeCheck x (cmtEntry d half p.2)⟩

end Sys2Proof.Machine
end

