-- ==== Sys2Proof/Machine/Streams.lean ====
section
/-! DEFINITION. Machine/Streams.lean: streams from acceptance to retirement (R54, R55, R72-R91), blocks on their units (R111,
R115), commit windows and pair decisions (R309-R315), flags and traps (R143-R149). -/

namespace Sys2Proof.Machine

/-! ## Acceptance (R54, R55, R103) -/

/-- The handle of slot k. -/
def Slot.handle (x : Slot) (k : Nat) : Nat := x.gen * 64 + k

/-- The lowest-numbered free issue slot. -/
def Chip.freeIssue (c : Chip) (n : Nat) : Option Nat := (List.range 64).find? fun k => !(c.slot n k).inFlight

/-- The status word of a retired stream (R83). -/
def Slot.status (x : Slot) (k : Nat) : Word := wNat (x.cause * 2 ^ 56 + x.handle k * 2 ^ 40 + x.pos % 2 ^ 40)

/-- R89: a retired PRECISE stream whose fault has not been consumed. -/
def Slot.unconsumed (x : Slot) : Bool :=
  x.state == .retired && x.view.precise && decide (0x21 ≤ x.cause) && decide (x.cause ≤ 0x24) && !x.consumed

/-- The descriptor with the chain entry that it names. -/
def Chip.viewOf (c : Chip) (n : Nat) (words : List Word) : StreamView :=
  ⟨words.map BitVec.toNat, c.chainEntry n (bits (words.headD 0#64).toNat 63 58)⟩

/-- R54, R77, R103, R147: accept a descriptor into slot `k`. -/
def Chip.acceptAt (c : Chip) (n k core : Nat) (words : List Word) (ste : Nat) : Chip :=
  let v := c.viewOf n words
  let old := c.slot n k
  let cl := c.clu n
  let sl : Slot := {
    used := true, gen := if old.used then (old.gen + 1) % 1024 else 0, state := .waiting, order := cl.nextOrder,
    desc := words, hdr := v.ce.hdr, nodes := v.ce.nodes, consts := v.ce.consts, en := ste % 128, deal := c.unitsOf n,
    core := core, reads := v.reads.map spanOf, writes := v.writes.map spanOf, hull := v.hull }
  let c1 := (c.setClu n { cl with nextOrder := cl.nextOrder + 1 }).setSlot n k sl
  c1.setFld (R.AGU_ISSUE_STAT n) F.AGU_ISSUE_STAT_LAST_HANDLE (sl.handle k)

/-- A refusal (R64): REFUSED and REFUSE_CODE. -/
def Chip.refuse (c : Chip) (n cause : Nat) : Chip :=
  (c.setFld (R.AGU_ISSUE_STAT n) F.AGU_ISSUE_STAT_REFUSED 1).setFld (R.AGU_ISSUE_STAT n) F.AGU_ISSUE_STAT_REFUSE_CODE cause

/-- STREAM_START (R78, R82): no older entry conflicts and every fence ahead has cleared. -/
def Chip.streamStart (c : Chip) (n k : Nat) : Chip :=
  let cl := c.clu n
  let x := c.slot n k
  if x.state ≠ .waiting ∨ cl.held x = true then c
  else c.setSlot n k { x with state := .running }

/-! ## Units -/

/-- The tiles of a unit: a pair in the SAFE configurations, one tile otherwise. -/
def Chip.unitTiles (c : Chip) (n u : Nat) : List Nat := if isSafe (c.cluMode n) then [2 * u, 2 * u + 1] else [u]

/-- The unit that a block is dealt to (R72). -/
def Slot.unitOf (x : Slot) (b : Nat) : Nat := x.deal.getD (b % x.deal.length) 0

/-- Have all blocks of a stream that are dealt to unit `u` been taken? -/
def Slot.unitDone (x : Slot) (u : Nat) : Bool :=
  match x.deal.findIdx? (· == u) with
  | none => true
  | some i =>
    let nu := x.deal.length
    (x.taken.filter fun b => b % nu == i).length == (x.view.blocks + nu - 1 - i) / nu

/-- Is the destination's window space of a tile taken up (R311)? -/
def Chip.noRoom (c : Chip) (n t d : Nat) : Bool := decide (2 ≤ ((c.tile (16 * n + t)).wins.filter fun w => w.dest == d).length)

/-- Elementwise destinations of a stream. -/
def StreamView.elementwise (v : StreamView) : List Nat := [0, 1].filter fun d => v.ce.destEn d && !v.ce.destReduces d

/-- Destinations that take a reduction. -/
def StreamView.reducing (v : StreamView) : List Nat := [0, 1].filter fun d => v.ce.destEn d && v.ce.destReduces d

/-- Does a live scan carry values from block to block? -/
def StreamView.scans (v : StreamView) : Bool := v.ce.live.any fun k => isScan (v.ce.node k).op

/-- BLOCK_TAKE waits: the order of R72, room in the commit buffers (R311), the carry of a scan (R111), and, for a PRECISE
stream, the block before (R76). -/
def Chip.blockReady (c : Chip) (n k b : Nat) : Bool :=
  let x := c.slot n k
  let v := x.view
  let u := x.unitOf b
  let ts := c.unitTiles n u
  let home := c.unitTiles n (x.unitOf 0)
  let last := x.taken.length + 1 == v.blocks
  x.state == .running && x.cause == 0 && x.fault.isNone && decide (b < v.blocks) && !x.taken.contains b && !x.deal.isEmpty
    && !(ts.any (c.tileFenced n)) && !c.cluFenced n && !c.faults.halted
    && (decide (b < x.deal.length) || x.taken.contains (b - x.deal.length))
    && ((c.clu n).slots.all fun e => !(e.2.state == .running && decide (e.2.order < x.order) && e.2.fault.isNone)
        || e.2.unitDone u)
    && (v.elementwise.all fun d => ts.all fun t => !c.noRoom n t d)
    && ((!last && !v.precise) || v.reducing.all fun d => home.all fun t => !c.noRoom n t d)
    && ((!v.scans && !v.precise) || b == 0 || x.taken.contains (b - 1))

/-! ## Commit windows -/

/-- Add a window to every tile of a unit, in the lowest free window slot of the destination. -/
def Chip.addWin (c : Chip) (n u : Nat) (mk : Nat → CmtWin) : Chip :=
  (c.unitTiles n u).foldl (fun c t =>
    let tl := c.tile (16 * n + t)
    let w0 := mk 0
    let half := if tl.wins.any fun w => w.dest == w0.dest && w.half == 0 then 1 else 0
    c.setTile (16 * n + t) { tl with wins := tl.wins ++ [mk half] }) c

/-- Show the block in a tile's lanes (Table 19.7). -/
def Chip.showBlock (c : Chip) (n t k b : Nat) (v : StreamView) : Chip :=
  let a := R.TIL_TILE_STAT n t
  let w := fput (fput (fput (fput (c.reg a) F.TIL_TILE_STAT_ACTIVE 1) F.TIL_TILE_STAT_PREC (b2n v.precise))
    F.TIL_TILE_STAT_SLOT k) F.TIL_TILE_STAT_BLOCK (b % 2 ^ 32)
  let x := R.XBR_STAT (16 * n + t)
  (c.setReg a w).setReg x (fput (fput (c.reg x) F.XBR_STAT_LOADED 1) F.XBR_STAT_CHAIN v.chain)

/-- A tile has completed a block; with no open window left its lanes are empty. -/
def Chip.blockOut (c : Chip) (n t : Nat) : Chip :=
  let c1 := c.addFld (R.TIL_TILE_CNT n t) F.TIL_TILE_CNT_BLOCKS 1
  if (c.tile (16 * n + t)).wins.any fun w => !w.closed then c1
  else (c1.setFld (R.TIL_TILE_STAT n t) F.TIL_TILE_STAT_ACTIVE 0).setFld (R.XBR_STAT (16 * n + t)) F.XBR_STAT_LOADED 0

/-! ## Taking a block -/

/-- Marks into the flags of both tiles. -/
def Slot.addMarks (x : Slot) (l : Marks) : Slot :=
  let e := FlagAcc.markAll x.view x.en ⟨x.flagsE, x.trapE⟩ l
  let o := FlagAcc.markAll x.view x.en ⟨x.flagsO, x.trapO⟩ l
  { x with flagsE := e.flags, trapE := e.trap, flagsO := o.flags, trapO := o.trap }

/-- The home unit combines the partials of the blocks taken and forms the reduction's own window (R107, R108, R310). The result word carries
element number 0 (R309). DEDUCED (log 73): an answer DEFAULT to its write is a stream fault of element 0, so POS is 0 (R88, R146 name no
element for it). -/
def Chip.formResult (c : Chip) (n k : Nat) : Chip :=
  let x := c.slot n k
  let v := x.view
  v.reducing.foldl (fun c d =>
    let nd := v.ce.destNode d
    let parts := (List.range x.taken.length).map fun b => partOfWords (mget [] x.partsE b)
    let r := joinParts (v.comb nd) ((parts.drop 1).map fun p => (p.val, p.last)) ((parts.head?).bind TreePart.val) []
    let val := r.1.getD (identity (v.ce.node nd).op (v.ce.nodeTy nd v.et))
    let size := tySize (v.slotTy (3 + d))
    let y := c.slot n k
    let c1 := c.setSlot n k (y.addMarks r.2)
    c1.addWin n (x.unitOf 0) fun h =>
      { slot := k, block := v.blocks, dest := d, half := h,
        words := [⟨0, opBase (v.op (3 + d)), val, size, codeCheck val (cmtEntry d h 0)⟩] }) c

/-- The slot after the elements of block `b` have passed the chain: flags and trap intervals (R143, R149), the block's partial (R107), and
the outputs of the nodes. -/
def Slot.evalBlock (x : Slot) (b : Nat) (es : List Elem) : Slot × NodesOut :=
  let v := x.view
  let prev := if v.scans && decide (0 < b) then some (partOfWords (mget [] x.partsE (b - 1))) else none
  let out := evalNodes v es prev
  let parts := fun (l : List (Nat × List Word)) => match out.part with
    | some p => mset l b p.words
    | none => l
  ({ x.addMarks out.marks with partsE := parts x.partsE, partsO := parts x.partsO }, out)

/-- The elements of a block have passed the chain: windows, flags, partials. `fault` ends a PRECISE stream's last block. With
the last block the stream's last operand read has returned, and its read hull is cleared (R77); a stream that faults keeps it until it
retires, so that the streams that wait on it are cancelled (R91). -/
def Chip.passBlock (c : Chip) (n k b : Nat) (es : List Elem) (fault : Option SFault) : Chip :=
  let x := c.slot n k
  let v := x.view
  let u := x.unitOf b
  let r := x.evalBlock b es
  let y := { r.1 with
    taken := x.taken ++ [b], fault := fault, log := if v.precise then x.log ++ [(b, es)] else x.log,
    hull := if x.taken.length + 1 == v.blocks && fault.isNone then none else x.hull }
  let c1 := c.setSlot n k y
  let c2 := v.elementwise.foldl (fun c d => c.addWin n u fun h =>
    { slot := k, block := b, dest := d, half := h, words := resWords v es r.2.outs d h,
      cause := match fault with | some f => f.cause | none => 0 }) c1
  let c3 := (c.unitTiles n u).foldl (fun c t =>
    let c := c.showBlock n t k b v
    if v.elementwise.isEmpty then c.blockOut n t else c) c2
  if fault.isSome || y.taken.length == v.blocks then c3.formResult n k else c3

/-! ## Stream faults in a unit -/

/-- Change or drop the windows of a stream on every tile of its cluster; a tile with no open window left has empty lanes. -/
def Chip.mapWins (c : Chip) (n k : Nat) (f : CmtWin → Option CmtWin) : Chip :=
  (List.range 16).foldl (fun c t =>
    let tl := c.tile (16 * n + t)
    if tl.wins.any fun w => w.slot == k then
      let ws := tl.wins.filterMap fun w => if w.slot == k then f w else some w
      let c1 := c.setTile (16 * n + t) { tl with wins := ws }
      if ws.any fun w => !w.closed then c1
      else (c1.setFld (R.TIL_TILE_STAT n t) F.TIL_TILE_STAT_ACTIVE 0).setFld (R.XBR_STAT (16 * n + t)) F.XBR_STAT_LOADED 0
    else c) c

/-- R87: an imprecise stream meets a stream fault: it issues nothing more, and its uncommitted windows are discarded. DESIGN CHOICE (log 71):
in THROUGHPUT, where the faulting unit's windows may be partly written, none of their words is. -/
def Chip.stopStream (c : Chip) (n k : Nat) (f : SFault) : Chip :=
  (c.setSlot n k { c.slot n k with fault := some f }).mapWins n k fun _ => none

/-- R88, R146: a PRECISE stream meets a stream fault at element `f.elem` when its result word is to be written: the elements from there on
leave no result word, no flag, no trap and no part in a reduction. -/
def Chip.undoFrom (c : Chip) (n k : Nat) (f : SFault) : Chip :=
  let x := c.slot n k
  let b := f.elem / 512
  let log := (x.log.filter fun p => p.1 ≤ b).map fun p => (p.1, p.2.filter fun e => e.no < f.elem)
  let x0 := { x with flagsE := 0, flagsO := 0, trapE := none, trapO := none, partsE := [], partsO := [], log := log,
                     taken := x.taken.filter (· ≤ b), fault := some f }
  let y := log.foldl (fun y p => (y.evalBlock p.1 p.2).1) x0
  let c1 := (c.setSlot n k y).mapWins n k fun w =>
    if b < w.block then none else some { w with words := w.words.filter fun e => e.elem < f.elem }
  c1.formResult n k

/-- BLOCK_TAKE (R72, R87, R88, R115). Both tiles of a pair read their own operands (R21), so every answer to a read counts twice. DESIGN CHOICE
(log 71): in THROUGHPUT no element of a faulting block is written, where R87 lets the unit's windows be partly written. -/
def Chip.takeBlock (c : Chip) (m : Memory) (n k b : Nat) : Chip :=
  if !c.blockReady n k b then c
  else
    let x := c.slot n k
    let v := x.view
    let w := tileWho c n ((c.unitTiles n (x.unitOf b)).headD 0 / 2)
    let r := readElems c m w v (min 512 (v.n - 512 * b)) (512 * b) {}
    let reads := (c.unitTiles n (x.unitOf b)).length
    let job := c.jobOn n
    let c1 := ((List.replicate reads r.2.hits).flatten).foldl (fun c h => c.masterHit m (some h) w.port job false) c
    let c1 := ((List.replicate reads r.2.quiet).flatten).foldl (fun c q => c.deferr q.1 w false q.2) c1
    if (c1.slot n k).state ≠ .running then c1
    else match r.2.halt with
      | some .abort => c1.discardJobs m job c.faults.linkCause.1 c.faults.linkCause.2
      | some .uce => c1
      | some (.fault f die write) =>
        let c2 := ((List.replicate (if write then 1 else reads) die.toList).flatten).foldl (fun c d => c.deferr d w write f.addr) c1
        if v.precise then c2.passBlock n k b r.1 (some f)
        else (c2.setSlot n k { c2.slot n k with taken := x.taken ++ [b] }).stopStream n k f
      | none => c1.passBlock n k b r.1 none

/-! ## Writing result words -/

/-- The key of a window in a slot's list of windows done. -/
def CmtWin.key (w : CmtWin) : Nat := w.block * 2 + w.dest

/-- The number of blocks whose elementwise windows a stream writes: all, or, for a PRECISE stream that has faulted, those up to the
faulting element's. -/
def Slot.lastBlocks (x : Slot) : Nat :=
  match x.fault with
  | some f => f.elem / 512 + 1
  | none => x.view.blocks

/-- Are the elementwise windows of a block done? -/
def Slot.blockDone (x : Slot) (b : Nat) : Bool := x.view.elementwise.all fun d => x.done.contains (b * 2 + d)

/-- R76: may a window be written or committed: for a PRECISE stream every elementwise window of the block before is
done, and a reduction's result comes after all of them. -/
def Slot.inOrder (x : Slot) (w : CmtWin) : Bool :=
  let v := x.view
  !v.precise || (if w.block == v.blocks then (List.range x.lastBlocks).all x.blockDone else w.block == 0 || x.blockDone (w.block - 1))

/-- What writing a window leaves: module, stored words, addresses written, and whether writing has ended. -/
structure Written where
  chip : Chip
  mem : Memory
  scat : List Nat
  ended : Bool := false

/-- A stream fault found when a result word is written (the default target answered). -/
def Chip.writeFault (c : Chip) (n k : Nat) (f : SFault) : Chip :=
  let x := c.slot n k
  if !x.view.precise then (if x.fault.isSome then c else c.stopStream n k f)
  else if x.fault.isSome then c else c.setSlot n k { x with fault := some f }

/-- The stream fault that writing a result word would meet, with the die whose default target answers. -/
def Chip.wordFault (c : Chip) (w : Who) (d : Nat) (e : ResWord) : Option (SFault × Nat) :=
  match c.route w e.addr true with
  | .deflt die => some (⟨e.elem, c.defaultCause e.addr, 3 + d, e.addr⟩, die)
  | .register _ => if e.size = 8 then none else some (⟨e.elem, 0x24, 3 + d, e.addr⟩, w.die)
  | _ => none

/-- Before a window of a PRECISE stream's block is written: the lowest element of the block, of either destination, whose write would be a
stream fault; nothing from that element on is written (R88). -/
def Chip.preciseStop (c : Chip) (n t : Nat) (w : Who) (win : CmtWin) : Option (SFault × Nat) :=
  let ws := (c.tile (16 * n + t)).wins.filter fun a => a.slot == win.slot && a.block == win.block && a.dest != win.dest
  let fs := ((win :: ws).map fun a => a.words.filterMap (c.wordFault w a.dest)).flatten
  fs.foldl (fun b f => match b with
    | none => some f
    | some g => if f.1.elem < g.1.elem ∨ (f.1.elem = g.1.elem ∧ f.1.slot < g.1.slot) then some f else some g) none

/-- Every core of a cluster loses the data-cache line of an address (R244). -/
def Chip.dropLine (c : Chip) (n a : Nat) : Chip :=
  (List.range 3).foldl (fun c i =>
    let x := c.core (3 * n + i)
    if (mget? x.dcache (a / 64 * 64)).isSome then c.setCore (3 * n + i) { x with dcache := mdel x.dcache (a / 64 * 64) }
    else c) c

/-- An entry of a commit buffer as it is read for commit: its code is checked over the entry's place (R311, R329, Table 12.2). -/
def ResWord.read (e : ResWord) (tile entry : Nat) : WordRead :=
  let sy := syndrome e.val e.chk entry
  match synDecode sy with
  | .clean => ⟨.okay, e.val, none⟩
  | .bad => ⟨.uce, e.val, some ⟨.commit tile entry, .bad, sy⟩⟩
  | o => ⟨.okay, delivered e.val o, some ⟨.commit tile entry, o, sy⟩⟩

/-- Write one result word through the even tile's port. DESIGN CHOICE (log 71): where two THROUGHPUT jobs write the same memory (R67:
undefined) the word holds what the later row wrote. -/
def putWord (n k d : Nat) (w : Who) (job : List Nat) (st : Written) (e : ResWord) : Written :=
  let c := st.chip
  match c.route w e.addr true with
  | .abort => { st with chip := c.discardJobs st.mem job c.faults.linkCause.1 c.faults.linkCause.2, ended := true }
  | .deflt die =>
    { st with chip := (c.deferr die w true e.addr).writeFault n k ⟨e.elem, c.defaultCause e.addr, 3 + d, e.addr⟩,
              ended := true }
  | .register _ =>
    if e.size = 8 then st
    else { st with chip := (c.deferr w.die w true e.addr).writeFault n k ⟨e.elem, 0x24, 3 + d, e.addr⟩, ended := true }
  | .word key fold loc =>
    let mask := (2 ^ e.size - 1) * 2 ^ (e.addr % 8)
    let r := writeWord c st.mem (key / 8 * 8) fold loc (e.val * 2 ^ (8 * (e.addr % 8)) % 2 ^ 64) mask
    let c1 := c.masterHit st.mem r.2.2 w.port job false
    if r.2.1 = .okay then { st with chip := c1.dropLine n e.addr, mem := r.1, scat := e.addr :: st.scat }
    else { st with chip := c1, ended := true }

/-- Read an entry for commit and write its word; an uncorrectable entry ends the writing and discards the job (R333). -/
def putEntry (n k t : Nat) (win : CmtWin) (w : Who) (job : List Nat) (st : Written) (e : ResWord) (i : Nat) : Written :=
  if st.ended then st
  else
    let r := e.read (16 * n + t) (cmtEntry win.dest win.half i)
    let c1 := st.chip.masterHit st.mem r.hit w.port job false
    if r.resp = .okay then putWord n k win.dest w job { st with chip := c1 } { e with val := r.data }
    else { st with chip := c1, ended := true }

/-- Write the words of a window in element order. In an imprecise scatter it is open which of two elements of one
address wins (R75). -/
def putWords (n k t : Nat) (win : CmtWin) (w : Who) (job : List Nat) (dup : Bool) : List ResWord → Nat → Written → Written
  | [], _, st => st
  | e :: r, i, st =>
    let skip := dup && st.scat.contains e.addr && Config.freeBool (st.chip.freeCtr + i)
    putWords n k t win w job dup r (i + 1) (if skip then st else putEntry n k t win w job st e i)

/-- Write a window to memory and note it as done. A PRECISE stream's window is written up to the element whose write would fault (R88). -/
def writeWindow (c : Chip) (m : Memory) (n t : Nat) (win : CmtWin) : Chip × Memory :=
  let v := (c.slot n win.slot).view
  let w := tileWho c n (t / 2)
  let stop := if v.precise && win.block != v.blocks then c.preciseStop n t w win else none
  let c0 := match stop with
    | some f => (c.deferr f.2 w true f.1.addr).undoFrom n win.slot f.1
    | none => c
  let words := match stop with
    | some f => win.words.filter fun e => e.elem < f.1.elem
    | none => win.words
  let dup := (v.index (3 + win.dest)).isSome && !v.precise
  let r := putWords n win.slot t win w (c.jobOn n) dup words 0 { chip := c0, mem := m, scat := (c.slot n win.slot).scat }
  let y := r.chip.slot n win.slot
  let c1 := { r.chip with freeCtr := c.freeCtr + (if dup then win.words.length else 0) }
  if y.state ≠ .running then (c1, r.mem)
  else (c1.setSlot n win.slot { y with done := y.done ++ [win.key], scat := if dup then r.scat else y.scat }, r.mem)

/-! ## Closing windows (R309, R310) -/

/-- The pair signature of a window (R309). -/
def winSig (w : CmtWin) : Nat :=
  w.words.foldl (fun s e =>
    crc64Word (crc64Word (crc64Word s (e.elem % 2 ^ 32 * 2 ^ 32 + w.dest)) e.addr) e.val) crc64Init

/-- The windows of a list with the first that meets `p` replaced or removed. -/
def updFirst (p : CmtWin → Bool) (f : CmtWin → Option CmtWin) : List CmtWin → List CmtWin
  | [] => []
  | w :: r => if p w then (f w).toList ++ r else w :: updFirst p f r

/-- A tile is done with the block of a window when no other window of the block is open there. -/
def Chip.winOut (c : Chip) (n t : Nat) (win : CmtWin) : Chip :=
  if win.block = (c.slot n win.slot).view.blocks ∨
      ((c.tile (16 * n + t)).wins.any fun w => !w.closed && w.slot == win.slot && w.block == win.block) = true then c
  else c.blockOut n t

/-- TILE_WINDOW_CLOSE: the tile's oldest open window closes: with its signature in the SAFE configurations, where an
injection at point 0x6 may change it; otherwise its words go to memory. -/
def closeWindow (c : Chip) (m : Memory) (n t : Nat) : Chip × Memory :=
  let tl := c.tile (16 * n + t)
  match tl.wins.find? fun w => !w.closed with
  | none => (c, m)
  | some w =>
    let x := c.slot n w.slot
    if isSafe (c.cluMode n) then
      let inj := (c.injAt n 6).filter fun i => i.1 == t
      let pat := match inj with | some i => i.2 | none => 0
      let sig := nxor (winSig w) pat
      let c1 := if inj.isSome then c.setFld (R.OWL_INJ n) F.OWL_INJ_ARMED 0 else c
      let c2 := c1.setTile (16 * n + t)
        { tl with wins := updFirst (fun w => !w.closed) (fun w => some { w with closed := true, sig := sig, inj := pat }) tl.wins }
      ((c2.setReg (R.CMT_SIG (16 * n + t)) (wNat sig)).winOut n t w, m)
    else if !x.inOrder w then (c, m)
    else
      let c1 := c.setTile (16 * n + t) { tl with wins := updFirst (fun w => !w.closed) (fun _ => none) tl.wins }
      let r := writeWindow c1 m n t w
      (if (r.1.slot n w.slot).state = .running then r.1.winOut n t w else r.1, r.2)

/-! ## Pair decisions (R312-R318) -/

/-- R318: one more decision of a pair; after every 4,096th the heartbeat comparison follows, which affects no commit. A report that is
missing or shows another syndrome is source 0x32. -/
def Chip.pairBeat (c : Chip) (m : Memory) (n k : Nat) (beat : Option Word) : Chip :=
  let a := R.CMT_STAT (16 * n + 2 * k)
  let p := c.fld a F.CMT_STAT_HB_PHASE
  let c1 := c.setFld a F.CMT_STAT_HB_PHASE ((p + 1) % 4096)
  if p = 4095 then
    let cl := c1.clu n
    let h := mget 0 cl.pairHb k
    let c2 := c1.setClu n { cl with pairHb := mset cl.pairHb k (h + 1) }
    if beatOk h beat then c2 else c2.detect m ⟨0x32, n, cluLoc n, 4, k, [], k, 0, false, false⟩
  else c1

/-- R314, R315: a pair mismatch; the third within 10^9 cycles fences the pair. -/
def Chip.pairMismatch (c : Chip) (m : Memory) (n k what : Nat) (inj coinc : Bool) : Chip :=
  let cl := c.clu n
  let now := c.cluCycle n
  let h := mget [] cl.pairHist k
  let third := !inj && decide (2 ≤ recentCount now h)
  let c1 := if inj then c else c.setClu n { cl with pairHist := mset cl.pairHist k (histAdd h now) }
  let c2 := c1.addFld (R.CMT_STAT (16 * n + 2 * k)) F.CMT_STAT_MISMATCH_TOTAL 1
  c2.detect m ⟨if third then 0x31 else 0x30, n, cluLoc n, 4, what * 2 ^ 8 + k, [], k, 0, inj, coinc⟩

/-- What differs between the windows of two tiles (Table 13.4), injected patterns removed; `upset` is a fault in the odd
tile's signature. -/
def winDiff (a b : CmtWin) (upset : Nat) : Option Nat :=
  if nxor a.sig a.inj ≠ nxor (nxor b.sig b.inj) upset then some 0
  else if a.words.length ≠ b.words.length then some 1
  else if a.cause ≠ b.cause then some 2
  else none

/-- The decision on a window of a pair: committed, or a mismatch recorded. A rail that errs commits nothing and hides no mismatch (R317,
R322). -/
def pairJudge (c : Chip) (m : Memory) (n k upset : Nat) (rails : Bool) (a b : CmtWin) : Chip × Memory :=
  let i7 := (c.injAt n 7).filter fun i => i.1 / 2 == k
  let injected := a.inj != 0 || b.inj != 0
  let diff := winDiff a b upset
  if rails || i7.isSome then
    let c1 := match diff with
      | some what => (if injected then c.injActed n true else c).pairMismatch m n k what false injected
      | none => c
    ((c1.injEnd n i7 rails).detect m ⟨0x32, n, cluLoc n, 4, k, [], k, 0, !rails, rails && i7.isSome⟩, m)
  else match diff with
    | some what => ((if injected then c.injActed n true else c).pairMismatch m n k what false injected, m)
    | none =>
      if injected then ((c.injActed n false).pairMismatch m n k 0 true false, m)
      else
        let same := fun (w : CmtWin) => a.slot == w.slot && a.block == w.block && a.dest == w.dest
        let drop := fun (c : Chip) (t : Nat) =>
          c.setTile t { c.tile t with wins := updFirst same (fun _ => none) (c.tile t).wins }
        let te := 16 * n + 2 * k
        writeWindow (drop (drop c te) (te + 1)) m n (2 * k) a

/-- PAIR_DECISION: the decision on the oldest window that both tiles have closed; the heartbeat comparison follows when it is due. -/
def pairDecide (c : Chip) (m : Memory) (n k upset : Nat) (rails : Bool) (beat : Option Word) : Chip × Memory :=
  let te := 16 * n + 2 * k
  let same := fun (a b : CmtWin) => a.slot == b.slot && a.block == b.block && a.dest == b.dest
  let odd := (c.tile (te + 1)).wins
  match (c.tile te).wins.find? fun a => a.closed && (c.slot n a.slot).inOrder a && odd.any fun b => b.closed && same a b with
  | none => (c, m)
  | some a =>
    match odd.find? fun b => b.closed && same a b with
    | none => (c, m)
    | some b =>
      if !isSafe (c.cluMode n) then (c, m)
      else
        let r := pairJudge c m n k upset rails a b
        (r.1.pairBeat r.2 n k beat, r.2)

/-! ## Retirement (R73, R145, R148) -/

/-- Windows that a stream writes: those of every block, or, for a PRECISE stream that has faulted, up to the faulting
block, and the results of reductions. -/
def Slot.expected (x : Slot) : Nat := x.lastBlocks * x.view.elementwise.length + x.view.reducing.length

/-- Have all result words been written? -/
def Slot.written (x : Slot) : Bool := decide (x.expected ≤ x.done.length)

/-- The flags that R145 compares for a tile: its own, with a fault or an injection in tile `t`. -/
def upsetFlags (upset : Option (Nat × Nat)) (k : Nat) : Nat :=
  match upset with
  | some (t, w) => if t / 2 = k then w else 0
  | none => 0

/-- R145: before a stream retires in the SAFE configurations, the flags and intervals of each pair's tiles are compared. Answers the
module after a mismatch, or none when all agree, with the module in which an injection may have acted. -/
def Chip.compareFlags (c : Chip) (m : Memory) (n k : Nat) (upset : Option (Nat × Nat)) : Chip × Bool :=
  let x := c.slot n k
  if !isSafe (c.cluMode n) then (c, true)
  else
    let i8 := (c.injAt n 8).filter fun i => x.deal.contains (i.1 / 2)
    let bad := x.deal.find? fun p => upsetFlags upset p != 0 || x.flagsE != x.flagsO || x.trapE != x.trapO
    match bad, i8 with
    | some p, _ =>
      let here := i8.filter fun i => i.1 / 2 == p
      ((c.injEnd n here true).pairMismatch m n p 3 false here.isSome, false)
    | none, some (t, pat) =>
      if pat % 128 = 0 then (c.setFld (R.OWL_INJ n) F.OWL_INJ_ARMED 0, true)
      else ((c.injActed n false).pairMismatch m n (t / 2) 3 true false, false)
    | none, none => (c, true)

/-- The slot of a stream that retires: entry cleared (R77), cause and position kept. -/
def Slot.retire (x : Slot) (cause pos : Nat) : Slot :=
  { x with state := .retired, writes := [], hull := none, cause := cause, pos := pos, consumed := false }

/-- Fences with nothing in flight before them are over (R82). -/
def Cluster.pruneFences (x : Cluster) : Cluster :=
  { x with fences := x.fences.filter fun f => x.slots.any fun e => e.2.inFlight && decide (e.2.order < f) }

/-- R148: a retired stream's trap becomes pending. -/
def Slot.trap (x : Slot) (k : Nat) : List Trap :=
  match x.trapE with
  | some (a, b) => [⟨x.handle k, x.order, x.view.precise, Nat.land x.flagsE x.en, a, b⟩]
  | none => []

/-- Retire slot k. -/
def Chip.retireSlot (c : Chip) (n k cause pos : Nat) : Chip :=
  let x := c.slot n k
  let c1 := c.setSlot n k (x.retire cause pos)
  let cl := c1.clu n
  c1.setClu n { cl with traps := cl.traps ++ x.trap k }.pruneFences

/-- STREAM_RETIRE: every block has been taken and every result word written. -/
def Chip.streamRetire (c : Chip) (m : Memory) (n k : Nat) (upset : Option (Nat × Nat)) : Chip :=
  let x := c.slot n k
  if x.state ≠ .running ∨ x.cause ≠ 0 ∨ x.fault ≠ none ∨ x.taken.length < x.view.blocks ∨ x.written = false then c
  else
    let r := c.compareFlags m n k upset
    if r.2 then r.1.retireSlot n k 0 0 else r.1

/-! ## Stream faults (R87-R91) -/

/-- R90: latch the first stream fault of the cluster. -/
def Chip.latchSflt (c : Chip) (n handle pos : Nat) (precise : Bool) (f : SFault) : Chip :=
  let a := R.AGU_SFLT_ADDR n
  if c.flag a F.AGU_SFLT_ADDR_VALID then c.setFld a F.AGU_SFLT_ADDR_MORE 1
  else
    (c.setReg (R.AGU_SFLT n)
      (wNat (fat F.AGU_SFLT_CAUSE f.cause + fat F.AGU_SFLT_HANDLE handle + fat F.AGU_SFLT_POS pos))).setReg a
      (wNat (fat F.AGU_SFLT_ADDR_VALID 1 + fat F.AGU_SFLT_ADDR_PRECISE (b2n precise) + fat F.AGU_SFLT_ADDR_SLOT f.slot
        + fat F.AGU_SFLT_ADDR_ADDR f.addr))

/-- Insert a slot by acceptance order. -/
def orderIns (e : Nat × Slot) : List (Nat × Slot) → List (Nat × Slot)
  | [] => [e]
  | a :: r => if e.2.order < a.2.order then e :: a :: r else a :: orderIns e r

/-- The slots that wait, oldest first. -/
def Cluster.waiting (x : Cluster) : List (Nat × Slot) := (x.slots.filter fun e => e.2.state == .waiting).foldr orderIns []

/-- R91: the streams that wait on a faulted one, transitively, are cancelled. `before` is the cluster before the fault
retired. -/
def Chip.cancelDeps (c : Chip) (n : Nat) (before : Cluster) (root : Slot) : Chip :=
  let hit := before.waiting.foldl (fun (acc : List (Nat × Slot)) e =>
    if before.waitsOn root e.2 || acc.any fun a => before.waitsOn a.2 e.2 then acc ++ [e] else acc) []
  hit.foldl (fun c e => c.retireSlot n e.1 0x25 0) c

/-- An imprecise stream that has faulted retires with its status word, so that a core that waits for it goes on to the interrupt (R268); its
flags are undefined, and it leaves no trap (R146). -/
def Chip.retireFaulted (c : Chip) (n k cause pos : Nat) : Chip :=
  let y := { (c.slot n k).retire cause pos with flagsE := Config.freeNat c.freeCtr % 128, trapE := none, trapO := none }
  let c1 := (c.setSlot n k y).fresh
  c1.setClu n (c1.clu n).pruneFences

/-- STREAM_FAULT (R87, R88): an imprecise stream retires with its status word, and the stream-fault interrupt goes to
every core of the cluster; a PRECISE stream retires with POS once the elements before the fault are written. DESIGN CHOICE (log 73): the
fault is latched (R90) at this moment. -/
def Chip.streamFault (c : Chip) (m : Memory) (n k : Nat) : Chip :=
  let x := c.slot n k
  match x.fault with
  | none => c
  | some f =>
    if x.state ≠ .running ∨ x.cause ≠ 0 then c
    else if x.view.precise then
      if !x.written then c
      else
        let r := c.compareFlags m n k none
        if !r.2 then r.1
        else
          let c1 := r.1.latchSflt n (x.handle k) f.elem true f
          (c1.retireSlot n k f.cause f.elem).cancelDeps n (c1.clu n) x
    else
      let pos := f.elem / 512
      let c1 := (c.latchSflt n (x.handle k) pos false f).retireFaulted n k f.cause pos
      let ea := c1.reg (R.AGU_SFLT_ADDR n) &&& 0xFFFFFFFFFFFF#64
      (c1.members n).foldl (fun c i =>
        let y := c.core (3 * n + i)
        c.setCore (3 * n + i) { y with irq := y.irq ++ [(0x0E, ea)] }) c1

/-- The status word with which the executive ends the job after a stream-fault interrupt (R87): that of the oldest imprecise stream that has
faulted. -/
def Chip.sfltStatus (c : Chip) (n : Nat) : Option Word :=
  (((c.clu n).slots.filter fun e => e.2.state == .retired && !e.2.view.precise && e.2.cause != 0 && e.2.cause != 0x25
    && !e.2.consumed).foldr orderIns []).head?.map fun e => e.2.status e.1

/-! ## Meanings -/

/-- STREAM_START (R78). -/
def execStreamStart (cl : Fin 48) (slot : Fin 64) (s : State) : Out := s.goChip (s.chip.streamStart cl.val slot.val)

/-- BLOCK_TAKE (R115). -/
def execBlockTake (cl : Fin 48) (slot : Fin 64) (block : Nat) (s : State) : Out :=
  s.goChip (s.chip.takeBlock s.mem cl.val slot.val block)

/-- TILE_WINDOW_CLOSE (R310). -/
def execTileWindowClose (cl : Fin 48) (tile : Fin 16) (s : State) : Out :=
  let r := closeWindow s.chip s.mem cl.val tile.val
  s.goBoth r.1 r.2

/-- PAIR_DECISION (R312). -/
def execPairDecision (cl : Fin 48) (pair : Fin 8) (upset : Word) (rails : Rails) (s : State) : Out :=
  let r := pairDecide s.chip s.mem cl.val pair.val upset.toNat rails.apart rails.beat
  s.goBoth r.1 r.2

/-- STREAM_RETIRE (R73). `upset` is a fault in the flags of one tile. -/
def execStreamRetire (cl : Fin 48) (slot : Fin 64) (upset : Option (Fin 16 × BitVec 7)) (s : State) : Out :=
  s.goChip (s.chip.streamRetire s.mem cl.val slot.val (upset.map fun u => (u.1.val, u.2.toNat)))

/-- STREAM_FAULT (R87). -/
def execStreamFault (cl : Fin 48) (slot : Fin 64) (s : State) : Out := s.goChip (s.chip.streamFault s.mem cl.val slot.val)

/-- AGU_SFLT_CLEAR (R90). -/
def execAguSfltClear (cl : Fin 48) (s : State) : Out := s.goChip (s.chip.clearSflt cl.val)

end Sys2Proof.Machine
end

