-- ==== Sys2Proof/Machine/FoxRun.lean ====
section
/-! DEFINITION. Machine/FoxRun.lean: how an instruction row runs on the cores of a triad, a pair or Badger (R235, R264, R292,
R293): which cores may run a word, the fetch that precedes it (R236, R245), the delivery of traps that come before it
(R150), and what the executive does in the step of an entry (R64, R70, R87, R273, R277). -/

namespace Sys2Proof.Machine

/-! ## Which cores run -/

/-- The cluster of a target. -/
def tgtCluster : Tgt → Option Nat
  | .fox n => some n.val
  | .badger => none

/-- Core numbers of a target, the one whose accesses are presented first. -/
def Chip.coresOf (c : Chip) (t : Tgt) : List Nat :=
  match t with
  | .fox n => (c.members n.val).map (3 * n.val + ·)
  | .badger => [144, 145]

/-- A core of a target as its instructions see the module. -/
def Chip.envAt (c : Chip) (t : Tgt) (lead key : Nat) : Env :=
  { chip := c, key := key, cl := tgtCluster t, lead := key == lead }

/-- May a core take its next word: it executes or repeats a stalled word, waits for no context (R280), and its window
may close if the word fills it? -/
def Core.canRun (x : Core) : Bool := x.alive && x.pendCur.isNone && x.mayRun

/-- May the cores of a target take a word: not stopped, halted by a debug session, gated or waiting to rejoin? -/
def Chip.ready (c : Chip) (t : Tgt) : Bool :=
  let ks := c.coresOf t
  !ks.isEmpty && (ks.all fun k => (c.core k).canRun) &&
    match t with
    | .fox n =>
      let cl := c.clu n.val
      (cl.haltAt.isNone || cl.stepOne) && cl.stop == .running && !c.flag (R.CLK_CLUSTER n.val) F.CLK_CLUSTER_GATED
        && !(ks.any fun k => c.rejoinStall n.val (c.core k))
    | .badger => !c.badger.restarting

/-! ## Fetch (R236, R245, R259) -/

/-- The word of a line of the instruction cache at an address. -/
def lineWord (l : List (Nat × List Byte)) (a : Nat) : Option Nat :=
  (mget? l (a / 64 * 64)).map fun b => natLE ((b.drop (a % 64)).take 4)

/-- The instruction cache with the line of `a`, and what reading a missing line leaves. Which line gives way is open, as for the
data cache. A line that is not answered OKAY is not kept: a word that executes from it is BUS_ERROR_FETCH's. -/
def fetchLine (e : Env) (x : Core) (m : Memory) (a : Nat) : List (Nat × List Byte) × List Eff :=
  let line := a / 64 * 64
  if (mget? x.icache line).isSome then (x.icache, [])
  else
    let r := loadLine e x m line
    if r.1 = .okay then
      let room := if e.fox then 512 else 256
      let old := if room ≤ x.icache.length
        then x.icache.eraseIdx (Config.freeNat (e.chip.freeCtr + line) % x.icache.length) else x.icache
      (mset old line ((r.2.1.map (bytesLE 8)).flatten), .request ⟨line, 64, false, 0⟩ :: r.2.2)
    else (x.icache, [])

/-- What fetching words has left: the instruction cache, the words and the effects. -/
structure Fetched where
  icache : List (Nat × List Byte)
  words : List (Nat × Nat) := []
  effs : List Eff := []

/-- Fetch the word at `a`: from the fetch queue, where it stays as it was fetched (R245), from the Den, which is not cached, or
through the instruction cache. -/
def fetchWord (e : Env) (x : Core) (m : Memory) (st : Fetched) (a : Nat) : Fetched :=
  match mget? x.fetchq a with
  | some w => { st with words := st.words ++ [(a, w)] }
  | none =>
    match e.denOff a with
    | some off =>
      let r := denWord e m (off / 8 * 8)
      if r.resp = .okay then
        { st with words := st.words ++ [(a, r.data / 2 ^ (8 * (off % 8)) % 2 ^ 32)], effs := st.effs ++ e.found x.sup r.hit }
      else st
    | none =>
      let l := fetchLine e { x with icache := st.icache } m a
      { icache := l.1, words := st.words ++ (lineWord l.1 a).toList.map fun w => (a, w), effs := st.effs ++ l.2 }

/-- Fetch the word at the PC and the four after it. -/
def Core.fetches (e : Env) (x : Core) (m : Memory) : Fetched :=
  ((List.range 5).map fun i => (x.pc + 4 * i) % 2 ^ 48).foldl (fetchWord e x m) { icache := x.icache }

/-- Fetch of the word at the PC: the fetch queue then holds the four words after it (R245). -/
def Core.fetch (e : Env) (x : Core) (m : Memory) : Core :=
  let r := x.fetches e m
  { x with icache := r.icache, fetchq := r.words.filter fun w => w.1 != x.pc }

/-- What the fetch leaves for the module: the lines requested, and what their checks found. -/
def Core.fetchEffs (e : Env) (x : Core) (m : Memory) : List Eff := (x.fetches e m).effs

/-! ## Running a word on every member -/

/-- What a word does on one core. -/
abbrev Act := Env → Core → Memory → CoreRes

/-- What running a word on every member leaves. -/
structure Ran where
  chip : Chip
  mem : Memory
  effs : List Eff

/-- The effects of a member's word that reach the module: the lead's, whose accesses the matrix serves once for all (R292, R293),
and those of another member's reads of its own Den. -/
def keepEffs (lead : Bool) (l : List Eff) : List Eff := if lead then l else l.filter Eff.ofOwnDen

/-- Run a word on the members, each on its own state. -/
def Chip.runAll (c : Chip) (m : Memory) (t : Tgt) (f : Act) : Ran :=
  let ks := c.coresOf t
  let lead := ks.headD 0
  ks.foldl (fun st k =>
    let e := c.envAt t lead k
    let r := f e ((c.core k).fetch e m) st.mem
    { chip := st.chip.setCore k r.core, mem := r.mem,
      effs := st.effs ++ keepEffs (k == lead) ((c.core k).fetchEffs e m ++ r.effs) }) ⟨c, m, []⟩

/-! ## Comparing a word's requests (R293) -/

/-- The access requests that a member makes with the fetch of its word and with the word. -/
def Chip.wordReqs (c : Chip) (m : Memory) (t : Tgt) (f : Act) (k : Nat) : List Request :=
  let e := c.envAt t ((c.coresOf t).headD 0) k
  let x := c.core k
  (x.fetchEffs e m ++ (f e (x.fetch e m) m).effs).filterMap Eff.request?

/-- The requests of core k, the first with an injected pattern in its address bits [47:0] (Table 11.6, point 0x2). -/
def injReqs (i : Option (Nat × Nat)) (k : Nat) (l : List Request) : List Request :=
  match i, l with
  | some (t, p), q :: r => if t = k then { q with addr := nxor q.addr (p % 2 ^ 48) } :: r else l
  | _, _ => l

/-- What the Owl finds in the members' requests before any of them is presented: the module with the finding reported, and whether
the access goes on. With one odd core the other two go on with their request (R298); a split stops the cluster; Badger's pair
stops on any difference (R323). -/
def Chip.compareAt (c : Chip) (m : Memory) (t : Tgt) (v : Nat → List Request) : Chip × Bool :=
  match t with
  | .badger => if judge v (c.coresOf t) = .agree then (c, true) else (c.badgerStop m true, false)
  | .fox n =>
    let ks := c.members n.val
    let v := fun k => v (3 * n.val + k)
    let i := (c.injAt n.val 2).filter fun i => ks.contains i.1 && !(v i.1).isEmpty
    let real := judge v ks
    let hurt := real != .agree
    let g := if hurt then real else judge (fun k => injReqs i k (v k)) ks
    ((c.injEnd n.val i hurt).owlReport m n.val ks g (!hurt) (hurt && i.isSome), g != .split)

/-- The comparison of the requests of a word and of its fetch. -/
def Chip.compareWord (c : Chip) (m : Memory) (t : Tgt) (f : Act) : Chip × Bool := c.compareAt m t (c.wordReqs m t f)

/-- Is the fetch of the next word an ordinary one: every member asks for the same lines, no check of theirs finds anything, and no
injection waits for a request? -/
def Chip.quietFetch (c : Chip) (m : Memory) (t : Tgt) : Bool :=
  let ks := c.coresOf t
  let fe := fun k => (c.core k).fetchEffs (c.envAt t (ks.headD 0) k) m
  (ks.all fun k => (fe k).all Eff.isRequest && fe k == fe (ks.headD 0))
    && match t with
      | .fox n => (c.injAt n.val 2).isNone
      | .badger => true

/-! ## The executive in the step of an entry -/

/-- Has core `y` entered the exception `cause`, which core `x` had not? -/
def entered (x y : Core) (cause : Nat) : Bool :=
  y.exc && y.erec.length == x.erec.length + 1 && y.cause == cause && y.escActive == x.escActive

/-- Was the code that an entry interrupted in user mode? -/
def fromUser (y : Core) : Bool := match y.erec.getLast? with | some r => !r.sup | none => false

/-- R273: the record of a trap in a core's Den: the count, then AGU_ATRAP and its interval. -/
def trapRecord (c : Chip) (e : Env) (m : Memory) : Memory :=
  match e.cl with
  | none => m
  | some n =>
    let k := (denWord e m 0x7FE0).data
    let m1 := denStore e m 0x7FE0 8 ((k + 1) % 2 ^ 64)
    let m2 := denStore e m1 0x7FE8 8 (c.reg (R.AGU_ATRAP n)).toNat
    let m3 := denStore e m2 0x7FF0 8 (c.reg (R.AGU_ATRAP_FIRST n)).toNat
    denStore e m3 0x7FF8 8 (c.reg (R.AGU_ATRAP_LAST n)).toNat

/-- What the Fox executive does at an entry that ends a job or the kernel of a cluster: the refusal of a descriptor (R64),
a store outside the ranges (R70), an imprecise stream fault (R87: whatever code it interrupts), the kernel's return (R53, R89, R277). `y` is the lead core
after the entry. -/
def Chip.execReact (c : Chip) (m : Memory) (n : Nat) (x y : Core) : Chip :=
  match (c.clu n).job with
  | none => c
  | some h =>
    if entered x y 0x0E then
      match c.sfltStatus n with
      | some w => c.endJob m h St.streamFault w 0#64
      | none => c
    else if !fromUser y then c
    else if entered x y 0x0D then
      let code := c.fld (R.AGU_ISSUE_STAT n) F.AGU_ISSUE_STAT_REFUSE_CODE
      c.endJob m h (if code = 0x0B ∨ code = 0x0C then St.range else St.descriptor) (wNat code) 0#64
    else if entered x y 0x07 then c.endJob m h St.range 0#64 0#64
    else if entered x y 0x12 then
      match c.unconsumed n with
      | some w => c.endJob m h St.streamFault w 0#64
      | none => c.setClu n { c.clu n with returned := true, retG0 := x.g 0 }
    else c

/-- A supervisor call begins: the job barrier that let the cluster go is over (R85). -/
def Chip.newCall (c : Chip) (n : Nat) (x y : Core) : Chip :=
  if entered x y 0x0C && (c.clu n).barrierOpen then c.setClu n { c.clu n with barrierOpen := false } else c

/-- Source 0x26: every member of a triad or pair has been stopped by escalation (R282); the Badger pair stops as by a
disagreement. -/
def Chip.stopReact (c : Chip) (m : Memory) (t : Tgt) : Chip :=
  let ks := c.coresOf t
  if ks.isEmpty || !(ks.all fun k => (c.core k).run == .stopped) then c
  else match t with
    | .fox n => c.detect m (cluDet 0x26 n.val 0 false false)
    | .badger => c.badgerStop m false

/-- After a word: the effects of its accesses, the executive's part, the stop of an escalated cluster, and the end of a debug
step when a word has retired (R455). -/
def Ran.finish (r : Ran) (c0 : Chip) (t : Tgt) : Chip × Memory :=
  let lead := (c0.coresOf t).headD 0
  let x := c0.core lead
  let y := r.chip.core lead
  let (c1, m1) := applyAll r.mem r.effs r.chip
  let c2 := match t with
    | .fox n =>
      let c := (c1.newCall n.val x y).execReact m1 n.val x y
      if (c0.clu n.val).stepOne && y.retired != x.retired then c.setClu n.val { c.clu n.val with stepOne := false } else c
    | .badger => c1
  ((c2.stopReact m1 t).fresh, m1)

/-! ## Traps at their delivery points (R150, R151) -/

/-- The oldest pending trap of a cluster that a delivery point covers. -/
def Chip.dueTrap (c : Chip) (t : Tgt) : Option Trap :=
  match t with
  | .badger => none
  | .fox n =>
    let x := c.core ((c.coresOf t).headD 0)
    match x.due.find? (fun p => p.1 == x.erec.length) with
    | none => none
    | some (_, l) =>
      let hits := (c.clu n.val).traps.filter fun a => l.contains a.order
      hits.foldl (fun b a => match b with
        | none => some a
        | some d => if a.order < d.order then some a else some d) none

/-- R151: the registers of a delivered trap; it is no longer pending. -/
def Chip.loadTrap (c : Chip) (n : Nat) (a : Trap) : Chip :=
  let rest := (c.clu n).traps.filter fun b => b.order != a.order
  let w := fat F.AGU_ATRAP_HANDLE a.handle + fat F.AGU_ATRAP_PRECISE (b2n a.precise) + fat F.AGU_ATRAP_MORE (b2n !rest.isEmpty)
    + fat F.AGU_ATRAP_FLAGS a.flags
  (((c.setClu n { c.clu n with traps := rest }).setReg (R.AGU_ATRAP n) (wNat w)).setReg (R.AGU_ATRAP_FIRST n)
    (wNat a.first)).setReg (R.AGU_ATRAP_LAST n) (wNat a.last)

/-- Run an act on the members once their requests have been compared: the module after the comparison, and what running left, if
the word goes on. -/
def Chip.comparedRun (c : Chip) (m : Memory) (t : Tgt) (f : Act) : Chip × Option Ran :=
  let r := c.compareWord m t f
  (r.1, if r.2 && r.1.ready t then some (r.1.runAll m t f) else none)

/-- The stream-arithmetic exception at the PC at which the core stands. -/
def actTrap : Act := fun e x m => takeExc e x m [] 0x0F true x.pc 0 none

/-- Deliver a trap on every member: the stream-arithmetic exception; at the entry the registers are loaded and the executive
records the trap (R272, R273). -/
def Chip.deliver (c : Chip) (m : Memory) (t : Tgt) (a : Trap) : Chip × Memory :=
  match t with
  | .badger => (c, m)
  | .fox n =>
    match c.comparedRun m t actTrap with
    | (c0, none) => (c0, m)
    | (c0, some r) =>
      let ks := c0.coresOf t
      let lead := ks.headD 0
      let y := r.chip.core lead
      if entered (c0.core lead) y 0x0F then
        let c1 := r.chip.loadTrap n.val a
        let m1 := if fromUser y then ks.foldl (fun m k => trapRecord c1 (c1.envAt t lead k) m) r.mem else r.mem
        ({ r with chip := c1, mem := m1 } : Ran).finish c0 t
      else r.finish c0 t

/-! ## One instruction row -/

/-- Run an instruction row: nothing when the cores cannot take a word; a trap that is due comes first (R150); otherwise the members'
requests are compared (R293) and the word runs on every member that goes on. -/
def Chip.runWord (c : Chip) (m : Memory) (t : Tgt) (f : Act) : Chip × Memory :=
  if !c.ready t then (c, m)
  else match c.dueTrap t with
    | some a => c.deliver m t a
    | none => match c.comparedRun m t f with
      | (c0, none) => (c0, m)
      | (c0, some r) => r.finish c0 t

/-- The outcome of an instruction row that runs `f`. -/
def State.runWord (s : State) (t : Tgt) (f : Act) : Out :=
  let r := s.chip.runWord s.mem t f
  s.goBoth r.1 r.2

/-! ## Shapes of words -/

/-- A word that writes one general register and FLAGS. -/
def actFlags (d : Reg) (f : Core → Word × Flags) : Act := fun _ x m =>
  let r := f x
  ⟨((x.setG d r.1).setFlags r.2).step4, m, []⟩

/-- A word that writes one general register. -/
def actReg (d : Reg) (f : Core → Word) : Act := fun _ x m => ⟨(x.setG d (f x)).step4, m, []⟩

/-- A word that writes FLAGS. -/
def actTest (f : Core → Flags) : Act := fun _ x m => ⟨(x.setFlags (f x)).step4, m, []⟩

/-- A word that only Fox has (R230). -/
def foxOnly (f : Act) : Act := fun e x m => if e.fox then f e x m else illegal e x m

/-- A word that only Badger has (R230). -/
def badgerOnly (f : Act) : Act := fun e x m => if e.fox then illegal e x m else f e x m

/-- R240: use the 48-bit address of a sum, or raise the address exception. -/
def withAddr (sum : Nat) (f : Nat → Act) : Act := fun e x m =>
  if addrOk sum then f sum e x m else trapAt e x m ⟨0x04, sum⟩ []

/-- R240: the checks of a register target: 48 bits, then a multiple of 4. -/
def withTarget (v : Nat) (f : Act) : Act := fun e x m =>
  if !addrOk v then trapAt e x m ⟨0x04, v⟩ []
  else if v % 4 ≠ 0 then trapAt e x m ⟨0x05, v⟩ []
  else f e x m

/-- R243: a load waits for a store that it overlaps in part; when that store lies in the open window, the window closes
first. -/
def Core.waitStore (x : Core) (a n : Nat) : Core :=
  let mine := x.win.buf.any fun t => decide (t.addr < a + n) && decide (a < t.addr + t.size)
  Core.stall (if mine && x.closed.isNone then x.closeWin x.pc false else x)

/-- Load `n` bytes and go on with the value. -/
def withLoad (a n : Nat) (cached : Bool) (f : Nat → Core → Core) : Act := fun e x m =>
  match loadBytes e x m a n cached with
  | .value v cache ef => ⟨f v { x with dcache := cache }, m, ef⟩
  | .trap ex ef => trapAt e x m ex ef
  | .wait => ⟨x.waitStore a n, m, []⟩

/-- R296: room for `k` more stores in the window: the window closes first when they do not fit. At a rejoin boundary
the pair stalls (R300). -/
def withRoom (k : Nat) (f : Act) : Act := fun e x m =>
  match x.roomFor k with
  | none => ⟨x.stall, m, []⟩
  | some y =>
    let stalls := match e.cl with | some n => e.chip.rejoinStall n y | none => false
    if stalls then ⟨y.stall, m, []⟩ else f e y m

/-- Store `n` bytes after the register writes `pre` and go on. -/
def withStore (a n data : Nat) (pre fin : Core → Core) : Act := withRoom 1 fun e x m =>
  match storeBytes e (pre x) m a n data with
  | .done y m1 =>
    let l := denMerges e m a n
    ⟨(fin y).denAnswer a l, m1, (l.map fun h => e.found x.sup (some h)).flatten⟩
  | .trap ex => trapAt e x m ex []
  | .wait => ⟨x.stall, m, []⟩

end Sys2Proof.Machine
end

