-- ==== Sys2Proof/Machine/FoxAlu.lean ====
section
/-! DEFINITION. Machine/FoxAlu.lean: short pairs (R237, R238, Table 9.5), long arithmetic, immediate and bank-register words
(Table 9.7, R246, R249, R252-R255). -/

namespace Sys2Proof.Machine

/-! ## Short pairs -/

/-- FLAGS as a register of R238. -/
def flagsReg : Nat := 16

/-- Registers that a short operation reads (Table 9.5). -/
def shortReads : ShortOp → List Nat
  | .nop | .movi _ _ => []
  | .mov _ a | .not _ a => [a.val]
  | .add d a | .sub d a | .and d a | .or d a | .xor d a | .cmp d a | .tst d a => [d.val, a.val]
  | .addi d _ | .subi d _ | .shli d _ | .shri d _ | .sari d _ | .cmpi d _ => [d.val]

/-- Registers that a short operation writes. -/
def shortWrites : ShortOp → List Nat
  | .nop => []
  | .cmp _ _ | .cmpi _ _ | .tst _ _ => [flagsReg]
  | .mov d _ | .not d _ | .movi d _ | .add d _ | .sub d _ | .and d _ | .or d _ | .xor d _ | .addi d _ | .subi d _
  | .shli d _ | .shri d _ | .sari d _ => [d.val]

/-- R238: slot B neither reads nor writes a register that slot A writes. -/
def pairLegal (a b : ShortOp) : Bool :=
  (shortWrites a).all fun r => !(shortReads b).contains r && !(shortWrites b).contains r

/-- The write of a short operation, its operands read from core `x` (R237). -/
def shortResult (x : Core) : ShortOp → Option (Reg × Word)
  | .nop | .cmp _ _ | .cmpi _ _ | .tst _ _ => none
  | .mov d a => some (d, x.g a)
  | .add d a => some (d, x.g d + x.g a)
  | .sub d a => some (d, x.g d - x.g a)
  | .and d a => some (d, x.g d &&& x.g a)
  | .or d a => some (d, x.g d ||| x.g a)
  | .xor d a => some (d, x.g d ^^^ x.g a)
  | .not d a => some (d, ~~~(x.g a))
  | .movi d u => some (d, u.setWidth 64)
  | .addi d u => some (d, x.g d + u.setWidth 64)
  | .subi d u => some (d, x.g d - u.setWidth 64)
  | .shli d u => some (d, shl64 (x.g d) u.toNat)
  | .shri d u => some (d, shr64 (x.g d) u.toNat)
  | .sari d u => some (d, sar64 (x.g d) u.toNat)

/-- The FLAGS of a short compare or test. -/
def shortFlags (x : Core) : ShortOp → Option Flags
  | .cmp d a => some (subFlags (x.g d) (x.g a) 0).2
  | .cmpi d u => some (subFlags (x.g d) (u.setWidth 64) 0).2
  | .tst d a => some (logicFlags x.bank.flags (x.g d &&& x.g a)).2
  | _ => none

/-- Write the result of a short operation whose operands were read from `x` into `y`. -/
def shortWrite (x y : Core) (o : ShortOp) : Core :=
  let y1 := match shortResult x o with | some (d, v) => y.setG d v | none => y
  match shortFlags x o with | some f => y1.setFlags f | none => y1

/-- A short pair: both slots read before either writes; slot A's results are written first; a pair that breaks R238 raises the
illegal-pair exception. -/
def actPair (a b : ShortOp) : Act := fun e x m =>
  if pairLegal a b then ⟨(shortWrite x (shortWrite x x a) b).step4, m, []⟩ else trapAt e x m ⟨0x02, 0⟩ []

/-! ## Operand forms -/

/-- Sign-extended imm16. -/
def s16 (i : BitVec 16) : Word := i.signExtend 64

/-- Zero-extended imm16. -/
def u16 (i : BitVec 16) : Word := i.setWidth 64

/-- A shift count in a register: unsigned 64-bit. -/
def cnt (w : Word) : Nat := w.toNat

/-- Ga op Gb with its flags. -/
def rrr (f : Flags → Word → Word → Word × Flags) (a b : Reg) (x : Core) : Word × Flags := f x.bank.flags (x.g a) (x.g b)

/-- DIV (R140, R254, R255). -/
def divS (a b : Word) : Word × Flags :=
  if b = 0#64 then divFlags (if neg64 a then minInt64 else maxInt64) true false
  else divFlags (wInt (idiv a.toInt b.toInt)) false (a == minInt64 && b.toInt == -1)

/-- REM (R140, R254, R255). -/
def remS (a b : Word) : Word × Flags :=
  if b = 0#64 then divFlags a true false
  else divFlags (wInt (irem a.toInt b.toInt)) false (a == minInt64 && b.toInt == -1)

/-- DIVU. -/
def divU (a b : Word) : Word × Flags :=
  if b = 0#64 then divFlags (BitVec.allOnes 64) true false else divFlags (wNat (a.toNat / b.toNat)) false false

/-- REMU. -/
def remU (a b : Word) : Word × Flags :=
  if b = 0#64 then divFlags a true false else divFlags (wNat (a.toNat % b.toNat)) false false

/-- Signed minimum. -/
def minS (a b : Word) : Word := if b.toInt < a.toInt then b else a

/-- Signed maximum. -/
def maxS (a b : Word) : Word := if a.toInt < b.toInt then b else a

/-! ## Meanings -/

/-- A short pair (R237). -/
def execShortPair (t : Tgt) (x y : ShortOp) (s : State) : Out := s.runWord t (actPair x y)

/-- ADD (Table 9.7). -/
def execAdd (t : Tgt) (d a b : Reg) (s : State) : Out := s.runWord t (actFlags d (rrr (fun _ p q => addFlags p q 0) a b))

/-- ADC. -/
def execAdc (t : Tgt) (d a b : Reg) (s : State) : Out :=
  s.runWord t (actFlags d (rrr (fun f p q => addFlags p q (b2n f.c)) a b))

/-- SUB. -/
def execSub (t : Tgt) (d a b : Reg) (s : State) : Out := s.runWord t (actFlags d (rrr (fun _ p q => subFlags p q 0) a b))

/-- SBC. -/
def execSbc (t : Tgt) (d a b : Reg) (s : State) : Out :=
  s.runWord t (actFlags d (rrr (fun f p q => subFlags p q (1 - b2n f.c)) a b))

/-- AND. -/
def execAnd (t : Tgt) (d a b : Reg) (s : State) : Out := s.runWord t (actFlags d (rrr (fun f p q => logicFlags f (p &&& q)) a b))

/-- OR. -/
def execOr (t : Tgt) (d a b : Reg) (s : State) : Out := s.runWord t (actFlags d (rrr (fun f p q => logicFlags f (p ||| q)) a b))

/-- XOR. -/
def execXor (t : Tgt) (d a b : Reg) (s : State) : Out := s.runWord t (actFlags d (rrr (fun f p q => logicFlags f (p ^^^ q)) a b))

/-- SHL. -/
def execShl (t : Tgt) (d a b : Reg) (s : State) : Out :=
  s.runWord t (actFlags d (rrr (fun f p q => keepCV f (shl64 p (cnt q))) a b))

/-- SHR. -/
def execShr (t : Tgt) (d a b : Reg) (s : State) : Out :=
  s.runWord t (actFlags d (rrr (fun f p q => keepCV f (shr64 p (cnt q))) a b))

/-- SAR. -/
def execSar (t : Tgt) (d a b : Reg) (s : State) : Out :=
  s.runWord t (actFlags d (rrr (fun f p q => keepCV f (sar64 p (cnt q))) a b))

/-- NEG. -/
def execNeg (t : Tgt) (d a : Reg) (s : State) : Out := s.runWord t (actFlags d (fun x => negFlags x.bank.flags (x.g a)))

/-- NEGS. -/
def execNegs (t : Tgt) (d a : Reg) (s : State) : Out := s.runWord t (actFlags d (fun x => negsFlags x.bank.flags (x.g a)))

/-- MUL. -/
def execMul (t : Tgt) (d a b : Reg) (s : State) : Out := s.runWord t (actFlags d (rrr mulFlags a b))

/-- MULH. -/
def execMulh (t : Tgt) (d a b : Reg) (s : State) : Out := s.runWord t (actFlags d (rrr mulhFlags a b))

/-- MULHU. -/
def execMulhu (t : Tgt) (d a b : Reg) (s : State) : Out := s.runWord t (actFlags d (rrr mulhuFlags a b))

/-- DIV. -/
def execDiv (t : Tgt) (d a b : Reg) (s : State) : Out := s.runWord t (actFlags d (rrr (fun _ => divS) a b))

/-- DIVU. -/
def execDivu (t : Tgt) (d a b : Reg) (s : State) : Out := s.runWord t (actFlags d (rrr (fun _ => divU) a b))

/-- REM. -/
def execRem (t : Tgt) (d a b : Reg) (s : State) : Out := s.runWord t (actFlags d (rrr (fun _ => remS) a b))

/-- REMU. -/
def execRemu (t : Tgt) (d a b : Reg) (s : State) : Out := s.runWord t (actFlags d (rrr (fun _ => remU) a b))

/-- CMP. -/
def execCmp (t : Tgt) (a b : Reg) (s : State) : Out := s.runWord t (actTest fun x => (subFlags (x.g a) (x.g b) 0).2)

/-- TST. -/
def execTst (t : Tgt) (a b : Reg) (s : State) : Out :=
  s.runWord t (actTest fun x => (logicFlags x.bank.flags (x.g a &&& x.g b)).2)

/-- MIN. -/
def execMin (t : Tgt) (d a b : Reg) (s : State) : Out := s.runWord t (actFlags d (rrr (fun f p q => keepCV f (minS p q)) a b))

/-- MAX. -/
def execMax (t : Tgt) (d a b : Reg) (s : State) : Out := s.runWord t (actFlags d (rrr (fun f p q => keepCV f (maxS p q)) a b))

/-- ADDI. -/
def execAddi (t : Tgt) (d a : Reg) (imm : BitVec 16) (s : State) : Out :=
  s.runWord t (actFlags d (fun x => addFlags (x.g a) (s16 imm) 0))

/-- ANDI. -/
def execAndi (t : Tgt) (d a : Reg) (imm : BitVec 16) (s : State) : Out :=
  s.runWord t (actFlags d (fun x => logicFlags x.bank.flags (x.g a &&& u16 imm)))

/-- ORI. -/
def execOri (t : Tgt) (d a : Reg) (imm : BitVec 16) (s : State) : Out :=
  s.runWord t (actFlags d (fun x => logicFlags x.bank.flags (x.g a ||| u16 imm)))

/-- XORI. -/
def execXori (t : Tgt) (d a : Reg) (imm : BitVec 16) (s : State) : Out :=
  s.runWord t (actFlags d (fun x => logicFlags x.bank.flags (x.g a ^^^ u16 imm)))

/-- SHLI. -/
def execShli (t : Tgt) (d a : Reg) (n : BitVec 6) (s : State) : Out :=
  s.runWord t (actFlags d (fun x => keepCV x.bank.flags (shl64 (x.g a) n.toNat)))

/-- SHRI. -/
def execShri (t : Tgt) (d a : Reg) (n : BitVec 6) (s : State) : Out :=
  s.runWord t (actFlags d (fun x => keepCV x.bank.flags (shr64 (x.g a) n.toNat)))

/-- SARI. -/
def execSari (t : Tgt) (d a : Reg) (n : BitVec 6) (s : State) : Out :=
  s.runWord t (actFlags d (fun x => keepCV x.bank.flags (sar64 (x.g a) n.toNat)))

/-- CMPI. -/
def execCmpi (t : Tgt) (a : Reg) (imm : BitVec 16) (s : State) : Out :=
  s.runWord t (actTest fun x => (subFlags (x.g a) (s16 imm) 0).2)

/-- MOVI. -/
def execMovi (t : Tgt) (d : Reg) (imm : BitVec 16) (s : State) : Out := s.runWord t (actReg d fun _ => s16 imm)

/-- MOVK: bits [16k + 15:16k] take imm16. -/
def execMovk (t : Tgt) (d : Reg) (k : Fin 4) (imm : BitVec 16) (s : State) : Out :=
  s.runWord t (actReg d fun x => wNat (putBits (x.g d).toNat (16 * k.val + 15) (16 * k.val) imm.toNat))

/-- LDB (R232). -/
def execLdb (t : Tgt) (n : Fin 8) (a : Reg) (s : State) : Out :=
  s.runWord t fun _ x m => ⟨(x.setB n ((x.g a).extractLsb' 16 32)).step4, m, []⟩

/-- MFB (R232). -/
def execMfb (t : Tgt) (d : Reg) (n : Fin 8) (s : State) : Out :=
  s.runWord t (actReg d fun x => wNat ((x.bN n.val).toNat * 65536))

end Sys2Proof.Machine
end

