-- ==== Sys2Proof/Machine/FoxBlock.lean ====
section
/-! DEFINITION. Machine/FoxBlock.lean: block save and restore: STM and LDM on Fox (R283-R285), SAVEH and LOADH on Badger (R286,
Table 10.5). -/

namespace Sys2Proof.Machine

/-- The registers of a mask with their addresses: Gk at Ga + 8j, j the number of set mask bits below k (R283). -/
def maskRegs (mask base : Nat) : List (Nat × Nat) :=
  let ks := onesOf 16 mask
  ks.zip ((List.range ks.length).map fun j => (base + 8 * j) % 2 ^ 64)

/-- The address check and the access of one register's word: the exception that it raises, if any. -/
def wordExc (e : Env) (x : Core) (a : Nat) (write : Bool) : Option Exc :=
  if !addrOk a then some ⟨0x04, a⟩ else preExc e x a 8 write

/-- The exception of STM or LDM at register `k`: the registers before it stay complete, and the instruction resumes there
(R285). -/
def trapBlock (e : Env) (x : Core) (m : Memory) (k : Nat) (ex : Exc) (effs : List Eff) : CoreRes :=
  takeExc e { x with stm := some k } m effs ex.cause false x.pc ex.eaddr (some k)

/-- STM from register `k` on, in ascending order. -/
def stmRegs (e : Env) (x0 : Core) : List (Nat × Nat) → Core → Memory → CoreRes
  | [], x, m => ⟨x.step4, m, []⟩
  | (k, a) :: r, x, m =>
    match wordExc e x a true with
    | some ex => trapBlock e x m k ex []
    | none =>
      match storeBytes e x m a 8 (x0.gN k).toNat with
      | .done y m1 => stmRegs e x0 r y m1
      | .trap ex => trapBlock e x m k ex []
      | .wait => ⟨Core.stall { x with stm := some k }, m, []⟩

/-- Registers that an STM or LDM still has to reach. -/
def restOf (x : Core) (l : List (Nat × Nat)) : List (Nat × Nat) :=
  l.filter fun e => decide (x.stm.getD 0 ≤ e.1)

/-- The privilege exception of the first access that an STM or LDM still has to make: it goes before the alignment exception (Table 10.1,
priorities 5 and 6). -/
def firstPriv (e : Env) (x : Core) (write : Bool) : List (Nat × Nat) → Option (Nat × Exc)
  | [] => none
  | (k, a) :: _ => if addrOk a then (privExc e x a 8 write).map fun ex => (k, ex) else none

/-- STM (R283, R285): Ga a multiple of 8, or the alignment exception. -/
def actStm (a : Reg) (mask : BitVec 16) : Act := fun e x m =>
  let g := (x.g a).toNat
  let l := restOf x (maskRegs mask.toNat g)
  match firstPriv e x true l with
  | some p => trapBlock e x m p.1 p.2 []
  | none =>
  if g % 8 ≠ 0 then trapAt e x m ⟨0x06, g⟩ []
  else
    withRoom l.length (fun e x m => if 64 < x.buffered + l.length then ⟨x.stall, m, []⟩ else stmRegs e x l x m) e x m

/-- Insert a loaded register by its number. -/
def regIns (p : Nat × Word) : List (Nat × Word) → List (Nat × Word)
  | [] => [p]
  | q :: r => if p.1 < q.1 then p :: q :: r else q :: regIns p r

/-- Write loaded registers, each once, in the order in which they enter the signature (R294: ascending). -/
def setRegs (x : Core) (l : List (Nat × Word)) : Core := l.foldl (fun x p => x.setGOf x.key p.1 p.2) x

/-- LDM from register `k` on. The registers are written at the end, or up to the register whose access traps or waits, Ga not among
those. -/
def ldmRegs (e : Env) (a : Reg) : List (Nat × Nat) → Core → Memory → List (Nat × Word) → List Eff → CoreRes
  | [], x, m, got, ef => ⟨(setRegs x (got.foldr regIns [])).step4, m, ef⟩
  | (k, p) :: r, x, m, got, ef =>
    let part := fun (x : Core) => setRegs x (got.filter fun g => g.1 != a.val)
    if !addrOk p then trapBlock e (part x) m k ⟨0x04, p⟩ ef
    else match loadBytes e x m p 8 true with
      | .value v cache ef1 => ldmRegs e a r { x with dcache := cache } m (got ++ [(k, wNat v)]) (ef ++ ef1)
      | .trap ex ef1 => trapBlock e (part x) m k ex (ef ++ ef1)
      | .wait => ⟨Core.waitStore { part x with stm := some k } p 8, m, ef⟩

/-- LDM (R284, R285). When it resumes past Ga, whose value is written last, the word for Ga is read again. -/
def actLdm (a : Reg) (mask : BitVec 16) : Act := fun e x m =>
  let g := (x.g a).toNat
  match firstPriv e x false (restOf x (maskRegs mask.toNat g)) with
  | some p => trapBlock e x m p.1 p.2 []
  | none =>
  if g % 8 ≠ 0 then trapAt e x m ⟨0x06, g⟩ []
  else
    let all := maskRegs mask.toNat g
    let again := all.filter fun p => p.1 == a.val && decide (p.1 < x.stm.getD 0)
    ldmRegs e a (restOf x all ++ again) x m [] []

/-! ## Badger's save areas -/

/-- Two 32-bit halves as a word. -/
def pairWord (lo hi : BitVec 32) : Word := wNat (lo.toNat + hi.toNat * 2 ^ 32)

/-- The twelve words of a save area (Table 10.5). -/
def saveWords (x : Core) (h : Nat) : List Word :=
  let b := fun i => x.bN (4 * h + i)
  [wNat x.saveHead, wNat (h + x.key * 2 ^ 4 + (if h = 1 then flagsNat x.bank.flags * 2 ^ 8 else 0))]
    ++ (x.bank.g.toList.drop (8 * h)).take 8 ++ [pairWord (b 0) (b 1), pairWord (b 2) (b 3)]

/-- The window's store count as it stands after a word whose stores count otherwise than one by one (R257). -/
def Core.countStores (x : Core) (n : Nat) : Core := { x with win := { x.win with stores := n } }

/-- Store the words of a save area. -/
def saveStores (e : Env) : List Word → Nat → Core → Memory → Option (Core × Memory)
  | [], _, x, m => some (x, m)
  | w :: r, a, x, m =>
    match storeBytes e x m a 8 w.toNat with
    | .done y m1 => saveStores e r (a + 8) y m1
    | _ => none

/-- SAVEH (R286): the area is 128-byte aligned; a SAVEH that faults leaves nothing behind. Its twelve words are twelve records and
entries of the store buffer, and one store of the window (R257). -/
def actSaveh (a : Reg) (h : Fin 2) : Act := fun e x m =>
  let g := (x.g a).toNat
  let at12 := fun (f : Nat → Option Exc) => (List.range 12).findSome? fun i => f (g + 8 * i)
  if !addrOk g then trapAt e x m ⟨0x04, g⟩ []
  else match at12 fun p => privExc e x p 8 true with
    | some ex => trapAt e x m ex []
    | none =>
      if g % 128 ≠ 0 then trapAt e x m ⟨0x06, g⟩ []
      else match at12 fun p => preExc e x p 8 true with
        | some ex => trapAt e x m ex []
        | none =>
          withRoom 1 (fun e x m =>
            if 64 < x.buffered + 12 then ⟨x.stall, m, []⟩
            else
              let y := Core.noteSp { x with saveHead := g } 0x01D g
              match saveStores e (saveWords x h.val) g y m with
              | some r => ⟨(r.1.countStores (x.win.stores + 1)).step4, r.2, []⟩
              | none => ⟨x.stall, m, []⟩) e x m

/-- Load the words of a save area: the words, or how the load ended. -/
def saveLoads (e : Env) (x : Core) (m : Memory) : List Nat → List Word → List Eff → LoadRes × List Word
  | [], acc, ef => (.value 0 x.dcache ef, acc)
  | a :: r, acc, ef =>
    match loadBytes e x m a 8 true with
    | .value v cache ef1 => saveLoads e { x with dcache := cache } m r (acc ++ [wNat v]) (ef ++ ef1)
    | .trap ex ef1 => (.trap ex (ef ++ ef1), acc)
    | .wait => (.wait, acc)

/-- Write the registers of a half, recorded in ascending register code (R294). LOADH writes G15 after every other register (R286); no
register of the half is read in between, so the order in which the others are written shows nowhere. -/
def loadHalfRegs (x : Core) (h : Nat) (ws : List Word) : Core :=
  let x1 := (List.range 8).foldl (fun (x : Core) (i : Nat) => x.setGOf x.key (8 * h + i) (ws.getD (2 + i) 0#64)) x
  let x2 := (List.range 4).foldl (fun (x : Core) (i : Nat) =>
    x.setB (Fin.ofNat 8 (4 * h + i)) ((ws.getD (10 + i / 2) 0#64).extractLsb' (32 * (i % 2)) 32)) x1
  if h = 1 then x2.setFlags (flagsOf (bits (ws.getD 1 0#64).toNat 11 8)) else x2

/-- Does a save area's header name another half or another context than LOADH restores (R286)? -/
def headerBad (x : Core) (h hd : Nat) : Bool := hd % 2 != h || bits hd 7 4 != x.key

/-- LOADH (R286). Every access is checked before any is made; the header is judged before an error of the other words counts (Table
10.1, priorities 7 and 8). -/
def actLoadh (h : Fin 2) : Act := fun e x m =>
  let g := x.saveHead
  match (List.range 12).findSome? fun i => preExc e x (g + 8 * i) 8 false with
  | some ex => trapAt e x m ex []
  | none =>
    match loadBytes e x m (g + 8) 8 true with
    | .trap ex ef => trapAt e x m ex ef
    | .wait => ⟨x.waitStore (g + 8) 8, m, []⟩
    | .value hd cache ef =>
      let y := { x with dcache := cache }
      if headerBad x h.val hd then trapAt e y m ⟨0x0B, g⟩ ef
      else
        let r := saveLoads e y m ((0 :: (List.range 10).map (· + 2)).map fun i => g + 8 * i) [] []
        match r.1 with
        | .trap ex ef1 => trapAt e x m ex (ef ++ ef1)
        | .wait => ⟨x.waitStore g 96, m, []⟩
        | .value _ cache ef1 =>
          let ws := r.2.getD 0 0#64 :: wNat hd :: r.2.drop 1
          let z := loadHalfRegs { x with dcache := cache } h.val ws
          let link := bits (ws.getD 0 0#64).toNat 47 7 * 128
          ⟨(Core.noteSp { z with saveHead := link } 0x01D link).step4, m, ef ++ ef1⟩

/-! ## Meanings -/

/-- STM (R283). -/
def execStm (t : Tgt) (a : Reg) (mask : BitVec 16) (s : State) : Out := s.runWord t (foxOnly (actStm a mask))

/-- LDM (R284). -/
def execLdm (t : Tgt) (a : Reg) (mask : BitVec 16) (s : State) : Out := s.runWord t (foxOnly (actLdm a mask))

/-- SAVEH (R286). -/
def execSaveh (t : Tgt) (a : Reg) (h : Fin 2) (s : State) : Out := s.runWord t (badgerOnly (actSaveh a h))

/-- LOADH (R286). -/
def execLoadh (t : Tgt) (h : Fin 2) (s : State) : Out := s.runWord t (badgerOnly (actLoadh h))

end Sys2Proof.Machine
end

