-- ==== Sys2Proof/Machine/FoxFlow.lean ====
section
/-! DEFINITION. Machine/FoxFlow.lean: branches, calls and returns (R247, R248, R251, R274-R277), supervisor call and return from
exception (R263, R267), CRIT windows (R269, R270) and IFLUSH (R245). -/

namespace Sys2Proof.Machine

/-- Bounds of the return stack of the current numbered context (R275). -/
def Core.stackBase (x : Core) : Nat := 0x8000 + x.cur * 0x800

/-- The cycle count of the core's island (Table 9.2). -/
def Env.cycle (e : Env) : Nat :=
  match e.cl with
  | some n => e.chip.cluCycle n
  | none => e.chip.hubEdges

/-- The private address of an offset in the core's Den (R242). -/
def Env.denAddr (e : Env) (off : Nat) : Nat := 0x700000000000 - e.denSize + off

/-- Push a return address on the shadow stack, into its hardware part. -/
def Core.pushShadow (x : Core) (a : Nat) : Core :=
  let b := x.bankOf x.cur
  x.setBank x.cur { b with shadow := a :: b.shadow, inHw := b.inHw + 1 }

/-- Drop the newest shadow entry. -/
def Core.popShadow (x : Core) : Core :=
  let b := x.bankOf x.cur
  x.setBank x.cur { b with shadow := b.shadow.drop 1, inHw := b.inHw - 1 }

/-- R251, R276, R277: push the return address on the return stack and the shadow stack, and transfer control. The push is a
Den store and enters the signature as one (DEDUCED from R294 and R295). -/
def actCall (target : Nat) : Act := fun e x m =>
  if x.rsp = x.stackBase then trapAt e x m ⟨0x0B, x.rsp⟩ []
  else withRoom 1 (fun e x m =>
    let ret := (x.pc + 4) % 2 ^ 48
    let sp := x.rsp - 8
    let r := spillShadow e x m
    let y := (r.1.setRsp sp).pushShadow ret
    ⟨(y.noteStore (e.denAddr sp) 8 ret).retire target, denStore e r.2 sp 8 ret, []⟩) e x m

/-- R251, R276, R277: return. A control-flow exception comes before an error of the read (Table 10.1, priorities 7 and 8); an empty shadow
stack is one whatever is read. At the top of an empty stack a user-mode RET is the kernel's return from its entry point. The
manual does not state EADDR of the control-flow exception that a supervisor-mode RET raises there: a free value. -/
def actRet : Act := fun e x m =>
  if x.rsp = x.stackBase + 0x800 ∧ x.shadow = [] then
    if x.sup then trapAt e x m ⟨0x0B, (Config.freeWord e.chip.freeCtr).toNat⟩ [] else trapAt e x m ⟨0x12, 0⟩ []
  else
    let r := denWord e m x.rsp
    let ef := e.found x.sup r.hit
    match x.shadow with
    | [] => trapAt e x m ⟨0x0B, r.data⟩ ef
    | a :: _ =>
      if r.resp ≠ .okay then trapAt e x m (respExc r.resp (e.denAddr x.rsp)) ef
      else if a ≠ r.data then trapAt e x m ⟨0x0B, r.data⟩ ef
      else
        let u := unspillShadow e (x.setRsp (x.rsp + 8)).popShadow m
        ⟨u.1.retire r.data, m, ef ++ u.2⟩

/-- B.cc (R247): code 0xF is illegal. -/
def actBranch (cc : BitVec 4) (disp : BitVec 20) : Act := fun e x m =>
  match condHolds cc.toNat x.bank.flags with
  | none => illegal e x m
  | some false => ⟨x.step4, m, []⟩
  | some true => ⟨x.retire ((x.pc : Int) + 4 * disp.toInt + (2 ^ 48 : Nat)).toNat, m, []⟩

/-- A word that ends in an exception of its own: it counts as retired (R263: the frame's PC is the next word). -/
def Core.counted (x : Core) : Core :=
  { x with lastPc := x.pc, retired := x.retired + 1, win := { x.win with words := x.win.words + 1 } }

/-- SVC (Table 10.1): cause 0x0C, the PC of the next word, EADDR u16. -/
def actSvc (imm : BitVec 16) : Act := fun e x m =>
  if x.mustDrain e then ⟨x.drain, m, []⟩
  else enterExc e x.entryRoom.counted m [] 0x0C false ((x.pc + 4) % 2 ^ 48) imm.toNat none

/-- CRIT n and CRIT.END (R269): other codes, and CRIT n in an open window, are illegal; both are supervisor-only. -/
def actCrit (imm : BitVec 16) : Act := fun e x m =>
  let v := imm.toNat
  if v = 0x8000 then
    if !x.sup then privilege e x m else ⟨x.closeCrit.step4, m, []⟩
  else if 511 < v ∨ x.critEnd.isSome then illegal e x m
  else if !x.sup then privilege e x m
  else ⟨(({ x with critEnd := some (e.cycle + v + 2) } : Core).noteSp 0x014 (2 ^ 10 + (v + 1))).step4, m, []⟩

/-- IFLUSH (R245): the window closes, and once every store retired before has been acknowledged the fetch queue and the
instruction cache are emptied. -/
def actIflush : Act := fun e x m =>
  if x.mustDrain e || !x.winFresh then ⟨x.drain, m, []⟩
  else ⟨Core.step4 { x with icache := [], fetchq := [] }, m, []⟩

/-- R150, R277: the first trap to deliver before a kernel's return takes effect. -/
def Chip.firstTrap (c : Chip) (t : Tgt) : Option Trap :=
  match t with
  | .badger => none
  | .fox n => (c.clu n.val).traps.foldl (fun b a => match b with
      | none => some a
      | some d => if a.order < d.order then some a else some d) none

/-- RET on every member; before a kernel's return from its entry point takes effect, pending traps are delivered one by
one (R150). -/
def Chip.runRet (c : Chip) (m : Memory) (t : Tgt) : Chip × Memory :=
  let x := c.core ((c.coresOf t).headD 0)
  match c.firstTrap t with
  | some a =>
    if c.ready t && (c.dueTrap t).isNone && x.rsp == x.stackBase + 0x800 && x.shadow.isEmpty && !x.sup
    then c.deliver m t a else c.runWord m t actRet
  | none => c.runWord m t actRet

/-- Does the cluster serve the job barrier call and wait (R85)? The executive does not return until the last cluster of the job has called
with its streams retired. -/
def Chip.barred (c : Chip) (t : Tgt) : Bool :=
  match t with
  | .fox n => (c.clu n.val).job.isSome && (c.core ((c.coresOf t).headD 0)).inCall 2 && !(c.clu n.val).barrierOpen
  | .badger => false

/-! ## Meanings -/

/-- B.cc (R247). -/
def execBCc (t : Tgt) (cc : BitVec 4) (disp : BitVec 20) (s : State) : Out := s.runWord t (actBranch cc disp)

/-- CALL (R251). -/
def execCall (t : Tgt) (disp : BitVec 24) (s : State) : Out :=
  s.runWord t fun e x m => actCall ((x.pc : Int) + 4 * disp.toInt + (2 ^ 48 : Nat)).toNat e x m

/-- CALLR (R240, R251). -/
def execCallr (t : Tgt) (a : Reg) (s : State) : Out :=
  s.runWord t fun e x m => withTarget (x.g a).toNat (actCall (x.g a).toNat) e x m

/-- RET (R251, R276, R277). -/
def execRet (t : Tgt) (s : State) : Out :=
  let r := s.chip.runRet s.mem t
  s.goBoth r.1 r.2

/-- JMPR (R240). -/
def execJmpr (t : Tgt) (a : Reg) (s : State) : Out :=
  s.runWord t fun e x m => withTarget (x.g a).toNat (fun _ x m => ⟨x.retire (x.g a).toNat, m, []⟩) e x m

/-- SVC (R263). -/
def execSvc (t : Tgt) (imm : BitVec 16) (s : State) : Out := s.runWord t (actSvc imm)

/-- RFE (R267); it waits while the cluster is in the job barrier (R85): the barrier that let it go is over with the next call. -/
def execRfe (t : Tgt) (s : State) : Out :=
  if s.chip.barred t then .next s else s.runWord t doRfe

/-- CRIT (R269). -/
def execCrit (t : Tgt) (imm : BitVec 16) (s : State) : Out := s.runWord t (actCrit imm)

/-- CRIT.END (R269). -/
def execCritEnd (t : Tgt) (s : State) : Out := s.runWord t (actCrit 0x8000#16)

/-- IFLUSH (R245). -/
def execIflush (t : Tgt) (s : State) : Out := s.runWord t actIflush

end Sys2Proof.Machine
end

