-- ==== Sys2Proof/Machine/FoxWord.lean ====
section
/-! DEFINITION. Machine/FoxWord.lean: the 32-bit instruction words of Fox and Badger (R236, Tables 9.5 to 9.7, R286): which command a
word is, and none for an illegal word. A word that is legal as a word and traps when it runs (a B.cc with code 0xF, a word that the
configuration lacks, a VALU function above 6) is the command that traps. -/

namespace Sys2Proof.Machine

/-- Bits [hi:lo] of an instruction word. -/
def fieldOf (w : BitVec 32) (hi lo : Nat) : Nat := w.toNat / 2 ^ lo % 2 ^ (hi + 1 - lo)

/-- A register field at bit `lo`. -/
def regOf (w : BitVec 32) (lo : Nat) : Reg := Fin.ofNat 16 (fieldOf w (lo + 3) lo)

/-- A 15-bit slot (Table 9.5). -/
def decodeSlot (s : Nat) : Option ShortOp :=
  let op := s / 256
  let d : Reg := Fin.ofNat 16 (s / 16)
  let a : Reg := Fin.ofNat 16 s
  let u := BitVec.ofNat 4 s
  match op with
  | 0x00 => if s % 256 = 0 then some .nop else none
  | 0x01 => some (.mov d a)
  | 0x02 => some (.add d a)
  | 0x03 => some (.sub d a)
  | 0x04 => some (.and d a)
  | 0x05 => some (.or d a)
  | 0x06 => some (.xor d a)
  | 0x07 => some (.not d a)
  | 0x08 => some (.movi d u)
  | 0x09 => some (.addi d u)
  | 0x0A => some (.subi d u)
  | 0x0B => some (.shli d u)
  | 0x0C => some (.shri d u)
  | 0x0D => some (.sari d u)
  | 0x0E => some (.cmp d a)
  | 0x0F => some (.cmpi d u)
  | 0x10 => some (.tst d a)
  | _ => none

/-- Use a command when the fields that its format marks 0 are 0. -/
def zeroIn (w : BitVec 32) (l : List (Nat × Nat)) (i : Instr) : Option Instr :=
  if l.all fun f => fieldOf w f.1 f.2 == 0 then some i else none

/-- The operand forms of a load or store: banked for opcodes 0x40 to 0x4B, register for 0x50 to 0x5B (Table 9.6, formats MB and MR). -/
def decodeMem (w : BitVec 32) (mk : MemOp → Instr) : Option Instr :=
  if fieldOf w 31 24 < 0x50 then zeroIn w [(19, 19)] (mk (.banked (Fin.ofNat 8 (fieldOf w 18 16)) (w.setWidth 16)))
  else some (mk (.based (regOf w 16) (w.setWidth 16)))

/-- Long operations 0x01 to 0x17: format R. -/
def decodeR (t : Tgt) (w : BitVec 32) : Option Instr :=
  let d := regOf w 20
  let a := regOf w 16
  let b := regOf w 12
  let abd := fun i => zeroIn w [(11, 0)] i
  match fieldOf w 31 24 with
  | 0x01 => abd (.add t d a b)
  | 0x02 => abd (.adc t d a b)
  | 0x03 => abd (.sub t d a b)
  | 0x04 => abd (.sbc t d a b)
  | 0x05 => abd (.and t d a b)
  | 0x06 => abd (.or t d a b)
  | 0x07 => abd (.xor t d a b)
  | 0x08 => abd (.shl t d a b)
  | 0x09 => abd (.shr t d a b)
  | 0x0A => abd (.sar t d a b)
  | 0x0B => zeroIn w [(15, 0)] (.neg t d a)
  | 0x0C => zeroIn w [(15, 0)] (.negs t d a)
  | 0x0D => abd (.mul t d a b)
  | 0x0E => abd (.mulh t d a b)
  | 0x0F => abd (.mulhu t d a b)
  | 0x10 => abd (.div t d a b)
  | 0x11 => abd (.divu t d a b)
  | 0x12 => abd (.rem t d a b)
  | 0x13 => abd (.remu t d a b)
  | 0x14 => zeroIn w [(23, 20), (11, 0)] (.cmp t a b)
  | 0x15 => zeroIn w [(23, 20), (11, 0)] (.tst t a b)
  | 0x16 => abd (.min t d a b)
  | 0x17 => abd (.max t d a b)
  | _ => none

/-- Long operations 0x20 to 0x31: format I, MOVK, LDB and MFB. -/
def decodeI (t : Tgt) (w : BitVec 32) : Option Instr :=
  let d := regOf w 20
  let a := regOf w 16
  let imm := w.setWidth 16
  let n : Fin 8 := Fin.ofNat 8 (fieldOf w 18 16)
  match fieldOf w 31 24 with
  | 0x20 => some (.addi t d a imm)
  | 0x21 => some (.andi t d a imm)
  | 0x22 => some (.ori t d a imm)
  | 0x23 => some (.xori t d a imm)
  | 0x24 => zeroIn w [(15, 6)] (.shli t d a (w.setWidth 6))
  | 0x25 => zeroIn w [(15, 6)] (.shri t d a (w.setWidth 6))
  | 0x26 => zeroIn w [(15, 6)] (.sari t d a (w.setWidth 6))
  | 0x27 => zeroIn w [(23, 20)] (.cmpi t a imm)
  | 0x28 => zeroIn w [(19, 16)] (.movi t d imm)
  | 0x29 => zeroIn w [(19, 18)] (.movk t d (Fin.ofNat 4 (fieldOf w 17 16)) imm)
  | 0x30 => zeroIn w [(19, 19), (15, 0)] (.ldb t n d)
  | 0x31 => zeroIn w [(19, 19), (15, 0)] (.mfb t d n)
  | _ => none

/-- Long operations 0x40 to 0x5F: memory. -/
def decodeM (t : Tgt) (w : BitVec 32) : Option Instr :=
  let d := regOf w 20
  match fieldOf w 31 24 with
  | 0x40 | 0x50 => decodeMem w (.ld8 t d)
  | 0x41 | 0x51 => decodeMem w (.ld8s t d)
  | 0x42 | 0x52 => decodeMem w (.ld16 t d)
  | 0x43 | 0x53 => decodeMem w (.ld16s t d)
  | 0x44 | 0x54 => decodeMem w (.ld32 t d)
  | 0x45 | 0x55 => decodeMem w (.ld32s t d)
  | 0x46 | 0x56 => decodeMem w (.ld64 t d)
  | 0x48 | 0x58 => decodeMem w (.st8 t d)
  | 0x49 | 0x59 => decodeMem w (.st16 t d)
  | 0x4A | 0x5A => decodeMem w (.st32 t d)
  | 0x4B | 0x5B => decodeMem w (.st64 t d)
  | 0x5C => some (.ldu64 t d (regOf w 16) (w.setWidth 16))
  | 0x5D => zeroIn w [(23, 20)] (.dinv t (regOf w 16) (w.setWidth 16))
  | 0x5E => zeroIn w [(19, 0)] (.push t d)
  | 0x5F => zeroIn w [(19, 0)] (.pop t d)
  | _ => none

/-- Long operations 0x60 to 0x7F: control flow, system, block, short-vector and stream words. -/
def decodeC (t : Tgt) (w : BitVec 32) : Option Instr :=
  let d := regOf w 20
  let a := regOf w 16
  let imm := w.setWidth 16
  let sz : BitVec 2 := BitVec.ofNat 2 (fieldOf w 15 14)
  match fieldOf w 31 24 with
  | 0x60 => some (.bCc t (BitVec.ofNat 4 (fieldOf w 23 20)) (w.setWidth 20))
  | 0x61 => some (.call t (w.setWidth 24))
  | 0x62 => zeroIn w [(23, 20), (15, 0)] (.callr t a)
  | 0x63 => zeroIn w [(23, 0)] (.ret t)
  | 0x64 => zeroIn w [(23, 20), (15, 0)] (.jmpr t a)
  | 0x65 => zeroIn w [(23, 20)] (.stm t a imm)
  | 0x66 => zeroIn w [(23, 20)] (.ldm t a imm)
  | 0x67 => zeroIn w [(23, 0)] (.dinva t)
  | 0x68 => zeroIn w [(19, 12)] (.mfs t d (w.setWidth 12))
  | 0x69 => zeroIn w [(23, 20), (15, 12)] (.mts t (w.setWidth 12) a)
  | 0x6A => zeroIn w [(23, 16)] (.svc t imm)
  | 0x6B => zeroIn w [(23, 0)] (.rfe t)
  | 0x6C => zeroIn w [(23, 16)] (if imm = 0x8000#16 then .critEnd t else .crit t imm)
  | 0x6D => zeroIn w [(23, 0)] (.iflush t)
  | 0x6E => zeroIn w [(23, 20), (15, 1)] (.saveh t a (Fin.ofNat 2 w.toNat))
  | 0x6F => zeroIn w [(23, 16), (15, 1)] (.loadh t (Fin.ofNat 2 w.toNat))
  | 0x70 => some (.vld t d a sz (w.setWidth 14))
  | 0x71 => some (.vst t d a sz (w.setWidth 14))
  | 0x72 => zeroIn w [(9, 8), (3, 0)]
      (.valu t d a (regOf w 10) sz (BitVec.ofNat 4 (fieldOf w 7 4)))
  | 0x73 => zeroIn w [(13, 3)] (.vins t d sz (w.setWidth 3) a)
  | 0x74 => zeroIn w [(13, 3)] (.vext t d a sz (w.setWidth 3))
  | 0x7B => zeroIn w [(15, 0)] (.sFlags t d a)
  | 0x7C => zeroIn w [(19, 18), (15, 0)] (.sIssue t d (Fin.ofNat 4 (fieldOf w 17 16)))
  | 0x7D => zeroIn w [(15, 0)] (.sWait t d a)
  | 0x7E => zeroIn w [(19, 0)] (.vbar t d)
  | 0x7F => zeroIn w [(23, 0)] (.sFence t)
  | _ => none

/-- R236: the command that an instruction word is on a core of `t`; none for an illegal word. -/
def decodeWord (t : Tgt) (w : BitVec 32) : Option Instr :=
  if w.getLsbD 31 then
    if w.getLsbD 15 then none
    else match decodeSlot (fieldOf w 30 16), decodeSlot (fieldOf w 14 0) with
      | some x, some y => some (.shortPair t x y)
      | _, _ => none
  else
    let op := fieldOf w 31 24
    if op < 0x20 then decodeR t w
    else if op < 0x40 then decodeI t w
    else if op < 0x60 then decodeM t w
    else decodeC t w

end Sys2Proof.Machine
end

