-- ==== Sys2Proof/Machine/FoxEvents.lean ====
section
/-! DEFINITION. Machine/FoxEvents.lean: what reaches a core from outside its program: interrupts (R268, R270), the end of a CRIT
window, fetch errors and illegal words (R236, R263), doorbells, and the ends of background spills and loads (R279, R280). -/

namespace Sys2Proof.Machine

/-- Does the core stand at a word boundary: no word stalls or waits to resume (R268)? -/
def Core.atWord (x : Core) : Bool := x.run == .executing && x.stm.isNone

/-- The pending interrupt of highest priority (Table 10.1): store errors, then a stream fault, then the doorbell. -/
def nextIrq (l : List (Nat × Word)) : Option (Nat × Word) :=
  match l.find? fun i => i.1 == 0x0A with
  | some i => some i
  | none => match l.find? fun i => i.1 == 0x0E with
    | some i => some i
    | none => l.find? fun i => i.1 == 0x11

/-- Take an interrupt at a word boundary: the frame's PC is the next word. While stores are undecided the window closes and
the core goes on. -/
def takeIrq (e : Env) (x : Core) (m : Memory) (cause : Nat) (eaddr : Nat) (after : Core → Core) : CoreRes :=
  if x.mustDrain e then ⟨{ x.drain with run := .executing }, m, []⟩
  else enterExc e (after x) m [] cause (cause == 0x0A) x.pc eaddr none

/-- INTERRUPT_TAKE on one core (R268, R270): held while a CRIT window is open. -/
def actIrq : Act := fun e x m =>
  if !x.atWord || x.critEnd.isSome then ⟨x, m, []⟩
  else match nextIrq x.irq with
    | none => ⟨x, m, []⟩
    | some i => takeIrq e x m i.1 i.2.toNat fun y => { y with irq := dropFirst (fun k => k.1 == i.1) y.irq }

/-- CRIT_WINDOW_EXPIRY on one core (R270): the window's last cycle has passed. -/
def actExpiry : Act := fun e x m =>
  match x.critEnd with
  | some t => if x.atWord && decide (t ≤ e.cycle) then takeIrq e x m 0x10 0 id else ⟨x, m, []⟩
  | none => ⟨x, m, []⟩

/-- BUS_ERROR_FETCH on one core: response 0 DEFAULT, 1 UCE, 2 ABORT; an UCE is recorded at the word and, like an ABORT,
discards the job (Table 12.4). -/
def actFetchError (resp : Nat) : Act := fun e x m =>
  let w := e.who x.sup
  let r := loadWord e x m (x.pc / 8 * 8) 8
  let effs : List Eff := match resp with
    | 0 => [.defErr w.die w false x.pc]
    | 1 => if r.1 = .uce then r.2.2 else [.checked ⟨locate (x.pc / 8 * 8), .bad, freeBadSyn e.chip.freeCtr⟩ e.job w.port !e.fox]
    | _ => [.aborted e.job]
  trapAt e x m ⟨if resp = 1 then 0x09 else 0x08, x.pc⟩ effs

/-- Do something to every core of a target. -/
def Chip.mapCores (c : Chip) (t : Tgt) (f : Env → Core → Core) : Chip :=
  let ks := c.coresOf t
  ks.foldl (fun d k => d.setCore k (f (c.envAt t (ks.headD 0) k) (d.core k))) c

/-- A background spill ends: the context's image lies in its spill area and it is no longer resident; a load that waits starts (R279,
R280). -/
def spillDone : Act := fun e x m =>
  match x.spill with
  | some ⟨k, false⟩ =>
    ⟨{ x with resident := x.resident.filter (· != k),
              spill := match x.pendCur with | some j => some ⟨j, true⟩ | none => none },
     writeImage e m k (x.bankOf k), []⟩
  | _ => ⟨x, m, []⟩

/-- A context load ends: the context is resident and current (R280). An image that no longer reads as it was stored gives open
registers. -/
def loadDone : Act := fun e x m =>
  match x.spill, x.pendCur with
  | some ⟨k, true⟩, some j =>
    if k = j then
      let b := x.bankOf k
      let r := readBack e x m (e.ctxArea k) ((List.range 64).map (Config.hwArea b.contents))
      let y := if r.1 then x else x.setBank k (freeBank e.chip.freeCtr b)
      ⟨startSpill e { touchCtx y k with spill := none, pendCur := none, run := .executing }, m, r.2⟩
    else ⟨x, m, []⟩
  | _, _ => ⟨x, m, []⟩

/-- Let every core of a target do something beside its words. -/
def Chip.besides (c : Chip) (m : Memory) (t : Tgt) (f : Act) : Chip × Memory :=
  let r := (c.coresOf t).foldl (fun (st : Ran) k =>
    let a := f (c.envAt t ((c.coresOf t).headD 0) k) (st.chip.core k) st.mem
    { chip := st.chip.setCore k a.core, mem := a.mem, effs := st.effs ++ a.effs }) ⟨c, m, []⟩
  let p := applyAll r.mem r.effs r.chip
  (p.1.fresh, p.2)

/-! ## Meanings -/

/-- ILLEGAL_INSTRUCTION (R236): a word with bit 15 set, an unlisted opcode, or a bit in a field that its format marks 0. A word that some
row encodes is that row's to run: this one leaves the state as it is. -/
def execIllegalInstruction (t : Tgt) (w : BitVec 32) (s : State) : Out :=
  if (decodeWord t w).isSome then .next s else s.runWord t illegal

/-- INTERRUPT_TAKE (R268). -/
def execInterruptTake (t : Tgt) (s : State) : Out := s.runWord t actIrq

/-- CRIT_WINDOW_EXPIRY (R270). -/
def execCritWindowExpiry (t : Tgt) (s : State) : Out := s.runWord t actExpiry

/-- BUS_ERROR_FETCH (R263). -/
def execBusErrorFetch (t : Tgt) (resp : Fin 3) (s : State) : Out := s.runWord t (actFetchError resp.val)

/-- DOORBELL (Table 10.1): cause 0x11 becomes pending on every core of the target. -/
def execDoorbell (t : Tgt) (s : State) : Out :=
  s.goChip (s.chip.mapCores t fun _ x => if x.alive then { x with irq := x.irq ++ [(0x11, 0#64)] } else x)

/-- CONTEXT_SPILL_DONE (R279). -/
def execContextSpillDone (t : Tgt) (s : State) : Out :=
  let r := s.chip.besides s.mem t spillDone
  s.goBoth r.1 r.2

/-- CONTEXT_LOAD_DONE (R280). -/
def execContextLoadDone (t : Tgt) (s : State) : Out :=
  let r := s.chip.besides s.mem t loadDone
  s.goBoth r.1 r.2

end Sys2Proof.Machine
end

