-- ==== Sys2Proof/Machine/FoxMem.lean ====
section
/-! DEFINITION. Machine/FoxMem.lean: loads, stores, the data cache and the data stack (R239-R244, R250, R287, R288, Table 9.7). -/

namespace Sys2Proof.Machine

/-- Load `n` bytes at a memory operand into Gd; `ext` widens the value. -/
def actLoad (d : Reg) (mo : MemOp) (n : Nat) (cached : Bool) (ext : Nat → Word) : Act := fun e x m =>
  withAddr (memSum x mo) (fun a => withLoad a n cached fun v y => (y.setG d (ext v)).step4) e x m

/-- Sign extension of an `n`-bit value. -/
def sext (n v : Nat) : Word := wInt (sx n v)

/-- Store the low `n` bytes of Gt at a memory operand. -/
def actStore (d : Reg) (mo : MemOp) (n : Nat) : Act := fun e x m =>
  withAddr (memSum x mo) (fun a => withStore a n ((x.g d).toNat % 2 ^ (8 * n)) id Core.step4) e x m

/-- PUSH: G15 goes down by 8 and the value that Gt had is stored there (R250). -/
def actPush (d : Reg) : Act := fun e x m =>
  let v := x.g d
  let a := ((x.g 15).toNat + 2 ^ 64 - 8) % 2 ^ 64
  withAddr a (fun a => withStore a 8 v.toNat (fun y => y.setG 15 (wNat a)) Core.step4) e x m

/-- POP: the word at G15 into Gt, then G15 goes up by 8; POP G15 leaves the loaded value (R250). -/
def actPop (d : Reg) : Act := fun e x m =>
  let g := x.g 15
  withAddr g.toNat (fun a => withLoad a 8 true fun v y =>
    (if d = 15 then y.setG 15 (wNat v) else (y.setG d (wNat v)).setG 15 (g + 8#64)).step4) e x m

/-- DINV: the line that holds the address leaves the data cache (R244). -/
def actDinv (a : Reg) (imm : BitVec 16) : Act := fun e x m =>
  withAddr (memSum x (.based a imm)) (fun p _ x m =>
    ⟨Core.step4 { x with dcache := mdel x.dcache (p / 64 * 64) }, m, []⟩) e x m

/-! ## Meanings -/

/-- LD8. -/
def execLd8 (t : Tgt) (d : Reg) (m : MemOp) (s : State) : Out := s.runWord t (actLoad d m 1 true wNat)

/-- LD8S. -/
def execLd8s (t : Tgt) (d : Reg) (m : MemOp) (s : State) : Out := s.runWord t (actLoad d m 1 true (sext 8))

/-- LD16. -/
def execLd16 (t : Tgt) (d : Reg) (m : MemOp) (s : State) : Out := s.runWord t (actLoad d m 2 true wNat)

/-- LD16S. -/
def execLd16s (t : Tgt) (d : Reg) (m : MemOp) (s : State) : Out := s.runWord t (actLoad d m 2 true (sext 16))

/-- LD32. -/
def execLd32 (t : Tgt) (d : Reg) (m : MemOp) (s : State) : Out := s.runWord t (actLoad d m 4 true wNat)

/-- LD32S. -/
def execLd32s (t : Tgt) (d : Reg) (m : MemOp) (s : State) : Out := s.runWord t (actLoad d m 4 true (sext 32))

/-- LD64. -/
def execLd64 (t : Tgt) (d : Reg) (m : MemOp) (s : State) : Out := s.runWord t (actLoad d m 8 true wNat)

/-- ST8. -/
def execSt8 (t : Tgt) (d : Reg) (m : MemOp) (s : State) : Out := s.runWord t (actStore d m 1)

/-- ST16. -/
def execSt16 (t : Tgt) (d : Reg) (m : MemOp) (s : State) : Out := s.runWord t (actStore d m 2)

/-- ST32. -/
def execSt32 (t : Tgt) (d : Reg) (m : MemOp) (s : State) : Out := s.runWord t (actStore d m 4)

/-- ST64. -/
def execSt64 (t : Tgt) (d : Reg) (m : MemOp) (s : State) : Out := s.runWord t (actStore d m 8)

/-- LDU64: a load that does not use the data cache (R243). -/
def execLdu64 (t : Tgt) (d a : Reg) (imm : BitVec 16) (s : State) : Out :=
  s.runWord t (actLoad d (.based a imm) 8 false wNat)

/-- DINV (R244). -/
def execDinv (t : Tgt) (a : Reg) (imm : BitVec 16) (s : State) : Out := s.runWord t (actDinv a imm)

/-- DINVA (R244). -/
def execDinva (t : Tgt) (s : State) : Out := s.runWord t fun _ x m => ⟨Core.step4 { x with dcache := [] }, m, []⟩

/-- PUSH (R250). -/
def execPush (t : Tgt) (d : Reg) (s : State) : Out := s.runWord t (actPush d)

/-- POP (R250). -/
def execPop (t : Tgt) (d : Reg) (s : State) : Out := s.runWord t (actPop d)

end Sys2Proof.Machine
end

