-- ==== Sys2Proof/Machine/FoxStore.lean ====
section
/-! DEFINITION. Machine/FoxStore.lean: a released store reaches its target and its response returns to the core (R271, R288, R297,
Table 12.4). -/

namespace Sys2Proof.Machine

/-- The aligned words that a store of `n` bytes at `a` touches: address, bytes and data of each part. -/
def storeParts (data : Nat) : Nat → Nat → Nat → List (Nat × Nat × Nat)
  | 0, _, _ => []
  | k + 1, a, n =>
    let first := 8 - a % 8
    if n ≤ first then [(a, n, data % 2 ^ (8 * n))]
    else (a, first, data % 2 ^ (8 * first)) :: storeParts (data / 2 ^ (8 * first)) k (a + first) (n - first)

/-- What performing a store has left: the stored words, the effects, the parts performed, and for each 256-byte line, which is a piece of its
own (R193, R288), the address of its first part that was not answered OKAY. -/
structure Stored where
  mem : Memory
  effs : List Eff := []
  good : List (Nat × Nat × Nat) := []
  bad : List Nat := []

/-- A piece fails at `a`: it has one response. -/
def Stored.fail (st : Stored) (a : Nat) (l : List Eff) : Stored :=
  if st.bad.any fun b => b / 256 == a / 256 then st else { st with effs := st.effs ++ l, bad := st.bad ++ [a] }

/-- One part of a store at its target. -/
def storePart (e : Env) (sup : Bool) (st : Stored) (p : Nat × Nat × Nat) : Stored :=
  let a := p.1
  let w := e.who sup
  match e.chip.route w a true with
  | .word key fold loc =>
    let mask := (2 ^ p.2.1 - 1) * 2 ^ (a % 8)
    let r := writeWord e.chip st.mem key fold loc (p.2.2 * 2 ^ (8 * (a % 8))) mask
    let effs := match r.2.2 with | some h => [Eff.checked h e.job w.port !e.fox] | none => []
    if r.2.1 = .okay then { st with mem := r.1, effs := st.effs ++ effs, good := st.good ++ [p] } else st.fail a effs
  | .register reg =>
    if p.2.1 = 8 then { st with effs := st.effs ++ [.regStore w reg (wNat p.2.2)], good := st.good ++ [p] }
    else st.fail a [.defErr w.die w true a]
  | .deflt die => st.fail a [.defErr die w true a]
  | .abort => st.fail a [.aborted e.job]

/-- Perform a released store; bit i of `lost` says that its path did not deliver the piece in its i-th 256-byte line (R203, R328), which is
answered ABORT. -/
def performStore (e : Env) (m : Memory) (b : BufStore) (lost : BitVec 2) : Stored :=
  (storeParts b.data 3 b.addr b.size).foldl (fun st p =>
    if lost.getLsbD (p.1 / 256 - b.addr / 256) then st.fail p.1 [.aborted e.job] else storePart e b.sup st p) { mem := m }

/-- A member takes the responses of its oldest released store: each error is a pending cause 0x0A of its own with the address of the failing
part (R268, R271, R288). -/
def Core.storeAnswer (x : Core) (r : Stored) : Core :=
  let y := { x with released := x.released.drop 1 }
  let z := r.good.foldl (fun y p => cacheStore y p.1 p.2.1 p.2.2) y
  { z with irq := z.irq ++ r.bad.map fun a => (0x0A, wNat a) }

/-- The cores whose released stores wait: the members, or, when the cluster's cores are stopped and have no role (R305 step 1), the cores that
still hold some. -/
def Chip.storers (c : Chip) (t : Tgt) : List Nat :=
  let l := match c.coresOf t, t with
    | [], .fox n => (List.range 3).map (3 * n.val + ·)
    | ks, _ => ks
  l.filter fun k => !(c.core k).released.isEmpty

/-- The oldest released store of a core as a request of the Fox port. -/
def Chip.storeReq (c : Chip) (k : Nat) : List Request :=
  (c.core k).released.head?.toList.map fun b => ⟨b.addr, b.size, true, b.data⟩

/-- STORE_RESPONSE: the members' oldest released stores are compared (R293); the store is performed once, and every member receives the
responses of its pieces. A store that no majority holds is not performed. -/
def storeResponse (c : Chip) (m : Memory) (t : Tgt) (lost : BitVec 2) : Chip × Memory :=
  let r := c.compareAt m t fun k => c.storeReq k
  let c := r.1
  let ks := c.storers t
  let lead := ks.headD 0
  match (if r.2 then (c.core lead).released else []) with
  | [] => (c, m)
  | b :: _ =>
    let e := { c.envAt t lead lead with owner := some b.job }
    let r := performStore e m b lost
    let c1 := ks.foldl (fun c k => c.setCore k ((c.core k).storeAnswer r)) c
    applyAll r.mem r.effs c1

/-- STORE_RESPONSE (R271). -/
def execStoreResponse (t : Tgt) (lost : BitVec 2) (s : State) : Out :=
  let r := storeResponse s.chip s.mem t lost
  s.goBoth r.1 r.2

end Sys2Proof.Machine
end

