-- ==== Sys2Proof/Machine/FoxStream.lean ====
section
/-! DEFINITION. Machine/FoxStream.lean: the stream instructions S.ISSUE, S.WAIT, VBAR, S.FENCE and S.FLAGS (R54-R57, R82-R86, R89,
R144, R147, R150, R272). A word that has to wait stalls and is presented again. -/

namespace Sys2Proof.Machine

/-- Must the window still close, or its decision still come, before the word goes on (R86)? DESIGN CHOICE (log 69): a window in which no
word has retired and no store has been counted has nothing to compare, and is not closed. -/
def Core.mustClose (e : Env) (x : Core) : Bool := e.safe && (x.closed.isSome || !x.winFresh)

/-! ## S.ISSUE -/

/-- The descriptor in register group V4q (R54). -/
def descOf (x : Core) (q : Nat) : List Word :=
  ((List.range 4).map fun i => let v := x.vget (4 * q + i); [wNat v, wNat (v / 2 ^ 64)]).flatten

/-- First presentation: the descriptor enters the signature as one store and closes the window (R56, Table 11.2). -/
def issueOpen (q : Nat) : Act := withRoom 1 fun _ x m =>
  if x.closed.isSome then ⟨x.stall, m, []⟩
  else
    let d := descOf x q
    let y := (d.zip (List.range 8)).foldl (fun (x : Core) e => x.note (0x04 * 2 ^ 56 + e.2) e.1.toNat) x
    let h : HeldDesc := ⟨d, x.bank.ste⟩
    let z := { y with win := { y.win with stores := y.win.stores + 1, desc := some h } }
    ⟨(z.closeWin x.pc false).stall, m, []⟩

/-- The status word of a handle, when S.WAIT may answer it (R83): a slot never used gives an open value. -/
def Chip.waitStatus (c : Chip) (n h : Nat) : Option Word :=
  let x := c.slot n (h % 64)
  if !x.used then some (Config.freeWord c.freeCtr)
  else if x.gen ≠ h / 64 ∨ x.state = .free then some (wNat (0x3F * 2 ^ 56 + h * 2 ^ 40))
  else if x.state = .retired then some (x.status (h % 64))
  else none

/-- A fault whose status word S.WAIT or VBAR has returned is consumed (R84). -/
def Chip.consume (c : Chip) (n h : Nat) : Chip :=
  let k := h % 64
  let x := c.slot n k
  if x.used && x.gen == h / 64 && x.unconsumed then c.setSlot n k { x with consumed := true } else c

/-- The orders of the pending traps of a handle. DEDUCED (log 72): an S.WAIT on a handle that has gone stale is a delivery point for the trap
that its stream still has pending (R150, R152): traps are found by handle. -/
def Chip.trapsOf (c : Chip) (n h : Nat) : List Nat :=
  ((c.clu n).traps.filter fun a => a.handle == h).map (·.order)

/-- Write a status word and mark the traps of the delivery point. A delivery point that an exception has interrupted, at a lesser depth, keeps
its traps (R150). -/
def waitEnd (x : Core) (d : Reg) (w : Word) (orders : List Nat) : Core :=
  let y := (x.setG d w).step4
  let n := x.erec.length
  { y with pwait := none, due := (n, orders) :: x.due.filter fun p => p.1 < n }

/-- S.WAIT Gd on handle `h`: the window closes, the core stalls until the stream has retired. -/
def waitOn (d : Reg) (h : Nat) : Act := fun e x m =>
  if x.mustClose e then ⟨x.drain, m, []⟩
  else match e.cl with
    | none => ⟨x, m, []⟩
    | some n => match e.chip.waitStatus n h with
      | none => ⟨x.stall, m, []⟩
      | some w => ⟨waitEnd x d w (e.chip.trapsOf n h), m, []⟩

/-- Does the lead core have a released descriptor, its stores acknowledged (R57)? DESIGN CHOICE (log 69): acceptance, and so the core's stall,
waits for the acknowledgements; the rule holds back only the first operand read. -/
def Core.issueReady (x : Core) : Bool := x.issue.isSome && x.released.isEmpty

/-- The issue unit answers the descriptor of the cluster: the module, and the handle or the refusal; none while it has to
wait. A slot that is reused with an unconsumed PRECISE fault ends the job (R89). -/
def Chip.issueUnit (c : Chip) (m : Memory) (n k : Nat) (d : HeldDesc) : Chip × Option (Option Nat) :=
  if (c.clu n).haltAt.isSome then (c, none)
  else match c.refusal n (c.viewOf n d.words) with
    | some code => (c.refuse n code, some none)
    | none => match c.freeIssue n with
      | none => (c, none)
      | some i =>
        let old := c.slot n i
        if old.unconsumed then
          (match (c.clu n).job with
            | some h => c.endJob m h St.streamFault (old.status i) 0#64
            | none => c, none)
        else
          let c1 := c.acceptAt n i k d.words d.ste
          (c1, some (some ((c1.slot n i).handle i)))

/-- The core takes the answer: the handle in Gd, after which CORECFG.PRECISE waits for the stream (R272); or the stream-issue
exception. -/
def issueEnd (d : Reg) (a : Option Nat) : Act := fun e x m =>
  let y := { x with issue := none }
  match a with
  | none => trapAt e y m ⟨0x0D, 0⟩ []
  | some h =>
    let z := y.setG d (wNat h)
    if x.precise then ⟨Core.stall { z with pwait := some h }, m, []⟩ else ⟨z.step4, m, []⟩

/-- After a word with a delivery point has retired: its module effect, then the first trap that is due (R150). -/
def Chip.afterPoint (c : Chip) (m : Memory) (t : Tgt) (f : Act) (post : Chip → Chip) : Chip × Memory :=
  let lead := (c.coresOf t).headD 0
  if (c.dueTrap t).isSome then c.runWord m t f
  else
    let r := c.runWord m t f
    if (r.1.core lead).retired = (c.core lead).retired then r
    else
      let c1 := post r.1
      match c1.dueTrap t with
      | some a => if c1.ready t then c1.deliver r.2 t a else (c1, r.2)
      | none => (c1, r.2)

/-- S.ISSUE on the cores of a cluster. -/
def Chip.sIssue (c : Chip) (m : Memory) (n : Fin 48) (d : Reg) (q : Nat) : Chip × Memory :=
  let t := Tgt.fox n
  let ks := c.coresOf t
  let lead := ks.headD 0
  let x := c.core lead
  if !c.ready t then (c, m)
  else match c.dueTrap t, x.pwait, x.issue with
    | some _, _, _ => c.runWord m t (issueOpen q)
    | none, some h, _ => c.afterPoint m t (waitOn d h) fun c => c.consume n.val h
    | none, none, none => c.runWord m t (issueOpen q)
    | none, none, some desc =>
      if !(ks.all fun k => (c.core k).issueReady) then (c, m)
      else
        let a := c.issueUnit m n.val (lead % 3) desc
        match a.2 with
        | none => (a.1, m)
        | some ans => (a.1.runAll m t (issueEnd d ans)).finish c t

/-! ## S.WAIT, VBAR, S.FENCE, S.FLAGS -/

/-- VBAR (R84): every stream has retired. -/
def actVbar (d : Reg) : Act := fun e x m =>
  if x.mustClose e then ⟨x.drain, m, []⟩
  else match e.cl with
    | none => ⟨x, m, []⟩
    | some n =>
      let cl := e.chip.clu n
      if cl.slots.any fun s => s.2.inFlight then ⟨x.stall, m, []⟩
      else
        let w := match (cl.slots.filter fun s => s.2.unconsumed).foldr orderIns [] with
          | s :: _ => s.2.status s.1
          | [] => 0#64
        ⟨waitEnd x d w (cl.traps.map (·.order)), m, []⟩

/-- VBAR consumes the oldest fault. -/
def Chip.consumeOldest (c : Chip) (n : Nat) : Chip :=
  match ((c.clu n).slots.filter fun s => s.2.unconsumed).foldr orderIns [] with
  | s :: _ => c.setSlot n s.1 { s.2 with consumed := true }
  | [] => c

/-- S.FENCE (R82, R86): the window closes; the core does not wait for a stream. -/
def actFence : Act := fun e x m => if x.mustClose e then ⟨x.drain, m, []⟩ else ⟨x.step4, m, []⟩

/-- A fence behind every stream accepted so far. -/
def Chip.addFence (c : Chip) (n : Nat) : Chip :=
  let cl := c.clu n
  c.setClu n { cl with fences := cl.fences ++ [cl.nextOrder] }.pruneFences

/-- The flag word of a handle (Table 5.5), when S.FLAGS may answer it. -/
def Chip.flagWord (c : Chip) (n h : Nat) : Option Word :=
  let x := c.slot n (h % 64)
  if !x.used then some (Config.freeWord c.freeCtr)
  else if x.gen ≠ h / 64 ∨ x.state = .free then some (wNat (h * 2 ^ 48 + 2 ^ 47))
  else if x.state = .retired then
    some (wNat (h * 2 ^ 48 + b2n (Nat.land x.flagsE x.en != 0) * 2 ^ 15 + x.en * 2 ^ 8 + x.flagsE))
  else none

/-- S.FLAGS (R144). -/
def actSflags (d a : Reg) : Act := fun e x m =>
  match e.cl with
  | none => ⟨x, m, []⟩
  | some n => match e.chip.flagWord n ((x.g a).toNat % 65536) with
    | none => ⟨x.stall, m, []⟩
    | some w => ⟨(x.setG d w).step4, m, []⟩

/-! ## Meanings: the stream instructions are absent from Badger (R230) -/

/-- S.ISSUE (R54). -/
def execSIssue (t : Tgt) (d : Reg) (q : Fin 4) (s : State) : Out :=
  match t with
  | .badger => s.runWord t illegal
  | .fox n =>
    let r := s.chip.sIssue s.mem n d q.val
    s.goBoth r.1 r.2

/-- S.WAIT (R83). -/
def execSWait (t : Tgt) (d a : Reg) (s : State) : Out :=
  match t with
  | .badger => s.runWord t illegal
  | .fox n =>
    let h := ((s.chip.core ((s.chip.coresOf t).headD 0)).g a).toNat % 65536
    let r := s.chip.afterPoint s.mem t (fun e x m => waitOn d ((x.g a).toNat % 65536) e x m) fun c => c.consume n.val h
    s.goBoth r.1 r.2

/-- VBAR (R84). -/
def execVbar (t : Tgt) (d : Reg) (s : State) : Out :=
  match t with
  | .badger => s.runWord t illegal
  | .fox n =>
    let r := s.chip.afterPoint s.mem t (actVbar d) fun c => c.consumeOldest n.val
    s.goBoth r.1 r.2

/-- S.FENCE (R82). -/
def execSFence (t : Tgt) (s : State) : Out :=
  match t with
  | .badger => s.runWord t illegal
  | .fox n =>
    let r := s.chip.afterPoint s.mem t actFence fun c => c.addFence n.val
    s.goBoth r.1 r.2

/-- S.FLAGS (R144). -/
def execSFlags (t : Tgt) (d a : Reg) (s : State) : Out := s.runWord t (foxOnly (actSflags d a))

end Sys2Proof.Machine
end

