-- ==== Sys2Proof/Machine/FoxSys.lean ====
section
/-! DEFINITION. Machine/FoxSys.lean: special registers (R234, R235, R275, R289, Tables 9.2 to 9.4, 10.6, 10.7) and contexts
(R278). -/

namespace Sys2Proof.Machine

/-- Numbers that Tables 9.2 and 10.6 list for the configuration. -/
def spListed (e : Env) (sp : Nat) : Bool :=
  sp ≤ 0x006 && (e.fox || sp != 0x001) || (decide (0x010 ≤ sp) && decide (sp ≤ 0x01C)) || (!e.fox && sp == 0x01D)

/-- Registers that the tables mark supervisor-only. -/
def spSup (sp : Nat) : Bool := sp == 0x005 || decide (0x010 ≤ sp)

/-- COREID (Table 9.2): die, coded as the DIE field of a location code, and cluster. -/
def Env.coreId (e : Env) : Nat :=
  match e.cl with
  | some n => n / 12 * 2 ^ 12 + n % 12 * 2 ^ 8
  | none => 0xE * 2 ^ 12

/-- MULFIX (R253): FIXLAT of the die on Fox, the core's own bit on Badger. -/
def Env.mulfix (e : Env) (x : Core) : Bool :=
  match e.cl with
  | some n => e.chip.flag (R.FAB_CTRL (n / 12)) F.FAB_CTRL_FIXLAT
  | none => x.mulfix

/-- CRITSTAT (Table 10.7). -/
def critWord (e : Env) (x : Core) : Nat :=
  match x.critEnd with
  | some t => 2 ^ 10 + min 512 (t - 1 - e.cycle)
  | none => 0

/-- CTXSTAT (Table 10.7). -/
def ctxWord (x : Core) : Nat :=
  (match x.spill with | some s => 2 ^ 28 + s.ctx % 16 * 2 ^ 24 | none => 0)
    + maskOf x.resident * 2 ^ 16 + maskOf x.live * 2 ^ 8 + b2n x.exc * 2 ^ 4 + x.cur

/-- What MFS reads (Tables 9.2, 9.4, 10.6, 10.7); CTXCTL is WO and reads 0. -/
def spRead (e : Env) (x : Core) (sp : Nat) : Word :=
  match sp with
  | 0x000 => wNat (flagsNat x.bank.flags)
  | 0x001 => wNat x.bank.ste
  | 0x002 => wNat x.rsp
  | 0x003 => wNat e.cycle
  | 0x004 => wNat x.retired
  | 0x005 => wNat (b2n x.precise * 4 + b2n (e.mulfix x) * 2)
  | 0x006 => wNat e.coreId
  | 0x010 => wNat x.evbase
  | 0x011 => wNat (b2n x.causeImp * 2 ^ 8 + x.cause)
  | 0x012 => x.eaddr
  | 0x013 => wNat (erecWord x.erec)
  | 0x014 => wNat (critWord e x)
  | 0x015 => wNat (ctxWord x)
  | 0x017 => wNat x.escbase
  | 0x018 => wNat x.escPc
  | 0x019 => if x.escActive then x.escState else x.escState &&& ~~~(wNat (2 ^ 54))
  | 0x01A => x.escAddr
  | 0x01B => x.escG15
  | 0x01C => wNat x.shadow.length
  | 0x01D => wNat x.saveHead
  | _ => 0#64

/-- MFS (R234): illegal for an unlisted number, a privilege exception in user mode for a supervisor-only register. -/
def actMfs (d : Reg) (sp : BitVec 12) : Act := fun e x m =>
  if !spListed e sp.toNat then illegal e x m
  else if spSup sp.toNat && !x.sup then privilege e x m
  else ⟨(x.setG d (spRead e x sp.toNat)).step4, m, []⟩

/-- MTS RSP (R275): a multiple of 8 between base and top; it empties the shadow stack. -/
def mtsRspAct (v : Nat) : Act := fun e x m =>
  if v % 8 ≠ 0 ∨ v < x.stackBase ∨ x.stackBase + 0x800 < v then trapAt e x m ⟨0x04, v⟩ []
  else ⟨(x.setRsp v).emptyShadow.step4, m, []⟩

/-- MTS CTXCTL (R278): OP creates or destroys the context ID. A context whose spill or load is in progress cannot be reached (R280): the
word waits until it has ended (DEDUCED, log 68). -/
def mtsCtx (v : Nat) : Act := fun e x m =>
  let id := v % 16
  if (bits v 9 8 == 1 || bits v 9 8 == 2) && x.moving id then ⟨x.stall, m, []⟩
  else
  let y := match bits v 9 8 with
    | 1 => createCtx e x id
    | 2 => destroyCtx e x id
    | _ => x
  ⟨(y.noteSp 0x016 v).step4, m, []⟩

/-- MTS (R234): a read-only register keeps its value. -/
def actMts (sp v : Nat) : Act := fun e x m =>
  if !spListed e sp then illegal e x m
  else if spSup sp && !x.sup then privilege e x m
  else
    let set := fun (y : Core) (w : Nat) => (⟨(y.noteSp sp w).step4, m, []⟩ : CoreRes)
    match sp with
    | 0x000 => ⟨(x.setFlags (flagsOf v)).step4, m, []⟩
    | 0x001 => set (x.setBank x.key { x.bank with ste := v % 128 }) (v % 128)
    | 0x002 => if x.sup then mtsRspAct v e x m else ⟨x.step4, m, []⟩
    | 0x005 =>
      let mf := if e.fox then x.mulfix else bit v 1
      set { x with precise := bit v 2, mulfix := mf } (b2n (bit v 2) * 4 + (if e.fox then 0 else b2n mf * 2))
    | 0x010 => set { x with evbase := bits v 47 8 * 256 } (bits v 47 8 * 256)
    | 0x016 => mtsCtx v e x m
    | 0x017 => set { x with escbase := bits v 47 8 * 256 } (bits v 47 8 * 256)
    | 0x01D => set { x with saveHead := bits v 47 7 * 128 } (bits v 47 7 * 128)
    | _ => ⟨x.step4, m, []⟩

/-! ## Meanings -/

/-- MFS (R234). -/
def execMfs (t : Tgt) (d : Reg) (sp : BitVec 12) (s : State) : Out := s.runWord t (actMfs d sp)

/-- MTS (R234). -/
def execMts (t : Tgt) (sp : BitVec 12) (a : Reg) (s : State) : Out :=
  s.runWord t fun e x m => actMts sp.toNat (x.g a).toNat e x m

/-- MTS RSP (R275). -/
def execMtsRsp (t : Tgt) (a : Reg) (s : State) : Out := s.runWord t fun e x m => actMts 0x002 (x.g a).toNat e x m

/-- Create a context: MTS CTXCTL (R278). -/
def execCtxCreate (t : Tgt) (a : Reg) (s : State) : Out := s.runWord t fun e x m => actMts 0x016 (x.g a).toNat e x m

/-- Destroy a context: MTS CTXCTL (R278). -/
def execCtxDestroy (t : Tgt) (a : Reg) (s : State) : Out := s.runWord t fun e x m => actMts 0x016 (x.g a).toNat e x m

end Sys2Proof.Machine
end

