-- ==== Sys2Proof/Machine/FoxVec.lean ====
section
/-! DEFINITION. Machine/FoxVec.lean: the short-vector words (R233, R241, R256, R257), present on Fox only. -/

namespace Sys2Proof.Machine

/-- The registers of a group (R233): none for an illegal first register or size code. -/
def group (first : Reg) (sz : BitVec 2) : Option (List Nat) :=
  let n := 2 ^ sz.toNat
  if sz = 3#2 ∨ first.val % n ≠ 0 then none else some ((List.range n).map (first.val + ·))

/-- Use a group or raise the illegal-instruction exception. -/
def withGroup (first : Reg) (sz : BitVec 2) (f : List Nat → Act) : Act := fun e x m =>
  match group first sz with
  | some l => f l e x m
  | none => illegal e x m

/-- The address of VLD and VST of `n` registers: Ga + 16 times s14, a multiple of 16 (R241, R256). Privilege goes before alignment (Table
10.1). -/
def withVAddr (a : Reg) (disp : BitVec 14) (n : Nat) (write : Bool) (f : Nat → Act) : Act := fun e x m =>
  let sum := ((x.g a).toNat + (disp.signExtend 64).toNat * 16) % 2 ^ 64
  withAddr sum (fun p e x m =>
    match (List.range (2 * n)).findSome? fun i => privExc e x (p + 8 * i) 8 write with
    | some ex => trapAt e x m ex []
    | none => if p % 16 ≠ 0 then trapAt e x m ⟨0x06, p⟩ [] else f p e x m) e x m

/-- Load 64-bit words one after another; no store held in the buffer overlaps them. -/
def loadWords (e : Env) (x : Core) (m : Memory) : List Nat → List Nat → List Eff → LoadRes × List Nat
  | [], acc, ef => (.value 0 x.dcache ef, acc)
  | a :: r, acc, ef =>
    match loadBytes e x m a 8 true with
    | .value v cache ef1 => loadWords e { x with dcache := cache } m r (acc ++ [v]) (ef ++ ef1)
    | .trap ex ef1 => (.trap ex (ef ++ ef1), acc)
    | .wait => (.wait, acc)

/-- The load of a group of `n` registers at `p` as one load (R243): its bytes come from the newest buffered store that holds them all; a
store that holds some of them makes it wait; else memory is read. -/
def loadGroup (e : Env) (x : Core) (m : Memory) (p n : Nat) : LoadRes × List Nat :=
  match (if (e.denOff p).isSome then none else forward x p (16 * n)) with
  | some (t, true) => (.value 0 x.dcache [], (List.range (2 * n)).map fun i => wordBytes t.data (p + 8 * i - t.addr) 8)
  | some (_, false) => (.wait, [])
  | none => loadWords e x m ((List.range (2 * n)).map fun i => p + 8 * i) [] []

/-- Write a group from its 64-bit words. -/
def setGroup (x : Core) (l : List Nat) (ws : List Nat) : Core :=
  x.setVs ((l.zip (List.range l.length)).map fun e => (e.1, ws.getD (2 * e.2) 0 + ws.getD (2 * e.2 + 1) 0 * 2 ^ 64))

/-- VLD. -/
def actVld (v a : Reg) (sz : BitVec 2) (disp : BitVec 14) : Act :=
  withGroup v sz fun l => withVAddr a disp l.length false fun p e x m =>
    let r := loadGroup e x m p l.length
    match r.1 with
    | .trap ex ef => trapAt e x m ex ef
    | .wait => ⟨x.waitStore p (16 * l.length), m, []⟩
    | .value _ cache ef => ⟨(setGroup { x with dcache := cache } l r.2).step4, m, ef⟩

/-- Record of the store of one V register: two records, one store (R257, Table 11.2). -/
def Core.noteVec (x : Core) (a data : Nat) : Core :=
  let y := x.noteStore a 8 (data % 2 ^ 64)
  y.note (0x02 * 2 ^ 56 + 3 * 2 ^ 48 + (a + 8)) (data / 2 ^ 64 % 2 ^ 64)

/-- Store V registers one after another; their accesses have been checked. -/
def storeVecs (e : Env) : List (Nat × Nat) → Core → Memory → Core × Memory
  | [], x, m => (x, m)
  | (k, a) :: r, x, m =>
    let d := x.vget k
    let y := x.noteVec a d
    match e.denOff a with
    | some off => storeVecs e r y (denStore e m off 16 d)
    | none => storeVecs e r { y with win := { y.win with buf := y.win.buf ++ [⟨a, 16, d, x.sup, e.job⟩] } } m

/-- VST: one store for each register (R257). -/
def actVst (v a : Reg) (sz : BitVec 2) (disp : BitVec 14) : Act :=
  withGroup v sz fun l => withVAddr a disp l.length true fun p e x m =>
    let ws := l.zip ((List.range l.length).map fun i => p + 16 * i)
    match ws.findSome? fun w => preExc e x w.2 16 true with
    | some ex => trapAt e x m ex []
    | none => withRoom l.length (fun e x m =>
        if (e.denOff p).isNone && decide (64 < x.buffered + l.length) then ⟨x.stall, m, []⟩
        else
          let r := storeVecs e ws x m
          ⟨r.1.step4, r.2, []⟩) e x m

/-- A function of VALU on one register pair, 64-bit word by word (R256). -/
def valuFn (f : Nat) (p q : Nat) : Nat :=
  let lanes := fun (g : Nat → Nat → Nat) =>
    g (p % 2 ^ 64) (q % 2 ^ 64) % 2 ^ 64 + g (p / 2 ^ 64) (q / 2 ^ 64) % 2 ^ 64 * 2 ^ 64
  match f with
  | 0x0 => p
  | 0x1 => 0
  | 0x2 => lanes (· + ·)
  | 0x3 => lanes fun u v => u + 2 ^ 64 - v
  | 0x4 => Nat.land p q
  | 0x5 => Nat.lor p q
  | _ => nxor p q

/-- VALU. -/
def actValu (vd va vb : Reg) (sz : BitVec 2) (f : BitVec 4) : Act :=
  withGroup vd sz fun ld => withGroup va sz fun la => withGroup vb sz fun lb e x m =>
    if 6 < f.toNat then illegal e x m
    else
      let vs := (la.zip lb).map fun p => valuFn f.toNat (x.vget p.1) (x.vget p.2)
      ⟨(x.setVs (ld.zip vs)).step4, m, []⟩

/-- VINS: Gs into word j of the group. -/
def actVins (v : Reg) (sz : BitVec 2) (j : BitVec 3) (a : Reg) : Act :=
  withGroup v sz fun l e x m =>
    let i := j.toNat
    if 2 * l.length ≤ i then illegal e x m
    else
      let k := l.getD (i / 2) 0
      ⟨(x.setV k (putBits (x.vget k) (64 * (i % 2) + 63) (64 * (i % 2)) (x.g a).toNat)).step4, m, []⟩

/-- VEXT: word j of the group into Gd. -/
def actVext (d v : Reg) (sz : BitVec 2) (j : BitVec 3) : Act :=
  withGroup v sz fun l e x m =>
    let i := j.toNat
    if 2 * l.length ≤ i then illegal e x m
    else ⟨(x.setG d (wNat (x.vget (l.getD (i / 2) 0) / 2 ^ (64 * (i % 2))))).step4, m, []⟩

/-! ## Meanings -/

/-- VLD (R256). -/
def execVld (t : Tgt) (v a : Reg) (sz : BitVec 2) (disp : BitVec 14) (s : State) : Out :=
  s.runWord t (foxOnly (actVld v a sz disp))

/-- VST (R256). -/
def execVst (t : Tgt) (v a : Reg) (sz : BitVec 2) (disp : BitVec 14) (s : State) : Out :=
  s.runWord t (foxOnly (actVst v a sz disp))

/-- VALU (R256). -/
def execValu (t : Tgt) (vd va vb : Reg) (sz : BitVec 2) (f : BitVec 4) (s : State) : Out :=
  s.runWord t (foxOnly (actValu vd va vb sz f))

/-- VINS (R256). -/
def execVins (t : Tgt) (v : Reg) (sz : BitVec 2) (j : BitVec 3) (a : Reg) (s : State) : Out :=
  s.runWord t (foxOnly (actVins v sz j a))

/-- VEXT (R256). -/
def execVext (t : Tgt) (d v : Reg) (sz : BitVec 2) (j : BitVec 3) (s : State) : Out :=
  s.runWord t (foxOnly (actVext d v sz j))

end Sys2Proof.Machine
end

