-- ==== Sys2Proof/Machine/Crypto.lean ====
section
/-! DEFINITION. Machine/Crypto.lean: the SHA-384 digest (R434, R447, R458) and the check of an ECDSA P-384 signature (R434,
R449, R459). The manual names the standards (FIPS 180-4, FIPS 186-5); their constants and steps are PRESUMED. -/

namespace Sys2Proof.Machine

/-! ## SHA-384 -/

/-- The additive constants of rounds 0 to 39. -/
def shaK1 : List Nat :=
  [ 0x428A2F98D728AE22, 0x7137449123EF65CD, 0xB5C0FBCFEC4D3B2F, 0xE9B5DBA58189DBBC,
    0x3956C25BF348B538, 0x59F111F1B605D019, 0x923F82A4AF194F9B, 0xAB1C5ED5DA6D8118,
    0xD807AA98A3030242, 0x12835B0145706FBE, 0x243185BE4EE4B28C, 0x550C7DC3D5FFB4E2,
    0x72BE5D74F27B896F, 0x80DEB1FE3B1696B1, 0x9BDC06A725C71235, 0xC19BF174CF692694,
    0xE49B69C19EF14AD2, 0xEFBE4786384F25E3, 0x0FC19DC68B8CD5B5, 0x240CA1CC77AC9C65,
    0x2DE92C6F592B0275, 0x4A7484AA6EA6E483, 0x5CB0A9DCBD41FBD4, 0x76F988DA831153B5,
    0x983E5152EE66DFAB, 0xA831C66D2DB43210, 0xB00327C898FB213F, 0xBF597FC7BEEF0EE4,
    0xC6E00BF33DA88FC2, 0xD5A79147930AA725, 0x06CA6351E003826F, 0x142929670A0E6E70,
    0x27B70A8546D22FFC, 0x2E1B21385C26C926, 0x4D2C6DFC5AC42AED, 0x53380D139D95B3DF,
    0x650A73548BAF63DE, 0x766A0ABB3C77B2A8, 0x81C2C92E47EDAEE6, 0x92722C851482353B ]

/-- The additive constants of rounds 40 to 79. -/
def shaK2 : List Nat :=
  [ 0xA2BFE8A14CF10364, 0xA81A664BBC423001, 0xC24B8B70D0F89791, 0xC76C51A30654BE30,
    0xD192E819D6EF5218, 0xD69906245565A910, 0xF40E35855771202A, 0x106AA07032BBD1B8,
    0x19A4C116B8D2D0C8, 0x1E376C085141AB53, 0x2748774CDF8EEB99, 0x34B0BCB5E19B48A8,
    0x391C0CB3C5C95A63, 0x4ED8AA4AE3418ACB, 0x5B9CCA4F7763E373, 0x682E6FF3D6B2B8A3,
    0x748F82EE5DEFB2FC, 0x78A5636F43172F60, 0x84C87814A1F0AB72, 0x8CC702081A6439EC,
    0x90BEFFFA23631E28, 0xA4506CEBDE82BDE9, 0xBEF9A3F7B2C67915, 0xC67178F2E372532B,
    0xCA273ECEEA26619C, 0xD186B8C721C0C207, 0xEADA7DD6CDE0EB1E, 0xF57D4F7FEE6ED178,
    0x06F067AA72176FBA, 0x0A637DC5A2C898A6, 0x113F9804BEF90DAE, 0x1B710B35131C471B,
    0x28DB77F523047D84, 0x32CAAB7B40C72493, 0x3C9EBE0A15C9BEBC, 0x431D67C49C100D4C,
    0x4CC5D4BECB3E42B6, 0x597F299CFC657E2A, 0x5FCB6FAB3AD6FAEC, 0x6C44198C4A475817 ]

/-- The initial hash value. -/
def shaInit : List Nat :=
  [ 0xCBBB9D5DC1059ED8, 0x629A292A367CD507, 0x9159015A3070DD17, 0x152FECD8F70E5939,
    0x67332667FFC00B31, 0x8EB44A8768581511, 0xDB0C2E0D64F98FA7, 0x47B5481DBEFA4FA4 ]

/-- Rotate a 64-bit word right. -/
def rotr (x k : Nat) : Nat := x / 2 ^ k + x % 2 ^ k * 2 ^ (64 - k)

/-- Sum modulo 2^64. -/
def add64 (a b : Nat) : Nat := (a + b) % 2 ^ 64

/-- The complement of a 64-bit word. -/
def not64 (a : Nat) : Nat := 2 ^ 64 - 1 - a

/-- Exclusive or of three words. -/
def xor3 (a b c : Nat) : Nat := nxor a (nxor b c)

/-- The schedule function of the newer term. -/
def shaS1 (x : Nat) : Nat := xor3 (rotr x 19) (rotr x 61) (x / 2 ^ 6)

/-- The schedule function of the older term. -/
def shaS0 (x : Nat) : Nat := xor3 (rotr x 1) (rotr x 8) (x / 2 ^ 7)

/-- `f n`; the match has the kernel evaluate `n` once. -/
def strictly (n : Nat) (f : Nat → List Nat) : List Nat :=
  match n with
  | 0 => f 0
  | k + 1 => f (k + 1)

/-- One round on the working variables a to h with schedule word and constant. -/
def shaRound (v : List Nat) (w k : Nat) : List Nat :=
  match v with
  | [a, b, c, d, e, f, g, h] =>
    let ch := nxor (Nat.land e f) (Nat.land (not64 e) g)
    let t1 := (h + xor3 (rotr e 14) (rotr e 18) (rotr e 41) + ch + k + w) % 2 ^ 64
    let maj := xor3 (Nat.land a b) (Nat.land a c) (Nat.land b c)
    let t2 := add64 (xor3 (rotr a 28) (rotr a 34) (rotr a 39)) maj
    strictly (add64 t1 t2) fun x => strictly (add64 d t1) fun y => [x, a, b, c, y, e, f, g]
  | v => v

/-- The rounds: `win` holds the next 16 schedule words. -/
def shaRounds : List Nat → List Nat → List Nat → List Nat
  | [], _, v => v
  | k :: ks, win, v =>
    let w := win.headD 0
    strictly ((shaS1 (win.getD 14 0) + win.getD 9 0 + shaS0 (win.getD 1 0) + w) % 2 ^ 64) fun next =>
      shaRounds ks (win.drop 1 ++ [next]) (shaRound v w k)

/-- The compression of one block of 16 words. -/
def shaBlock (h block : List Nat) : List Nat := List.zipWith add64 h (shaRounds (shaK1 ++ shaK2) block h)

/-- Big-endian 64-bit words of bytes. -/
def wordsBE : Nat → List Byte → List Nat
  | 0, _ => []
  | n + 1, l => natBE (l.take 8) :: wordsBE n (l.drop 8)

/-- The blocks of a padded message. -/
def shaBlocks : Nat → List Byte → List Nat → List Nat
  | 0, _, h => h
  | n + 1, l, h => shaBlocks n (l.drop 128) (shaBlock h (wordsBE 16 (l.take 128)))

/-- SHA-384 of bytes, as a 384-bit number (the first byte most significant). -/
def sha384 (l : List Byte) : Nat :=
  let z := (239 - l.length % 128) % 128
  let m := l ++ [0x80#8] ++ List.replicate z 0#8 ++ bytesBE 16 (8 * l.length)
  ((shaBlocks (m.length / 128) m shaInit).take 6).foldl (fun a w => a * 2 ^ 64 + w) 0

/-! ## ECDSA P-384 -/

/-- The field prime. -/
def ecP : Nat := 2 ^ 384 - 2 ^ 128 - 2 ^ 96 + 2 ^ 32 - 1

/-- The order of the base point. -/
def ecN : Nat := 0xffffffffffffffffffffffffffffffffffffffffffffffffc7634d81f4372ddf581a0db248b0a77aecec196accc52973

/-- The curve constant b; a is -3. -/
def ecB : Nat := 0xb3312fa7e23ee7e4988e056be3f82d19181d9c6efe8141120314088f5013875ac656398d8a2ed19d2a85c8edd3ec2aef

/-- The base point. -/
def ecG : Nat × Nat :=
  (0xaa87ca22be8b05378eb1c71ef320ad746e1d3b628ba79b9859f741e082542a385502f25dbf55296c3a545e3872760ab7,
   0x3617de4a96262c6f5d9e98bf9292dc29f8f41dbd289a147ce9da3113b5f0b8c00a60b1ce1d7e819d7a431d7c90ea0e5f)

/-- `b ^ e` modulo `m`, the low `n` bits of `e`. -/
def powMod (m : Nat) : Nat → Nat → Nat → Nat
  | 0, _, _ => 1 % m
  | n + 1, b, e =>
    let r := powMod m n (b * b % m) (e / 2)
    if e % 2 = 1 then r * b % m else r

/-- The inverse modulo a prime. -/
def invMod (m a : Nat) : Nat := powMod m 384 (a % m) (m - 2)

/-- A difference modulo `m` of reduced numbers. -/
def subMod (m a b : Nat) : Nat := (a + m - b) % m

/-- The third point on a line of slope `l` through p and q, mirrored. -/
def ecChord (l : Nat) (p q : Nat × Nat) : Nat × Nat :=
  let x := subMod ecP (subMod ecP (l * l % ecP) p.1) q.1
  (x, subMod ecP (l * subMod ecP p.1 x % ecP) p.2)

/-- Sum of two points; none is the point at infinity. -/
def ecAdd (p q : Option (Nat × Nat)) : Option (Nat × Nat) :=
  match p, q with
  | none, q => q
  | p, none => p
  | some p, some q =>
    if p.1 = q.1 then
      if p.2 = q.2 ∧ p.2 ≠ 0 then
        some (ecChord ((3 * p.1 * p.1 + 3 * (ecP - 1)) % ecP * invMod ecP (2 * p.2) % ecP) p q)
      else none
    else some (ecChord (subMod ecP q.2 p.2 * invMod ecP (subMod ecP q.1 p.1) % ecP) p q)

/-- The multiple of a point by the low `n` bits of `k`. -/
def ecMul : Nat → Nat → Option (Nat × Nat) → Option (Nat × Nat)
  | 0, _, _ => none
  | n + 1, k, p =>
    let r := ecMul n (k / 2) (ecAdd p p)
    if k % 2 = 1 then ecAdd p r else r

/-- Is a pair of numbers a point of the curve (a valid public key)? -/
def ecOnCurve (q : Nat × Nat) : Bool :=
  decide (q.1 < ecP) && decide (q.2 < ecP)
    && q.2 * q.2 % ecP == (q.1 * q.1 % ecP * q.1 + 3 * (ecP - q.1) + ecB) % ecP

/-- Does (r, s) sign the digest `e` under the public key? -/
def ecdsaOk (key : Nat × Nat) (e : Nat) (sig : Nat × Nat) : Bool :=
  decide (1 ≤ sig.1) && decide (sig.1 < ecN) && decide (1 ≤ sig.2) && decide (sig.2 < ecN) && ecOnCurve key
    && (let w := invMod ecN sig.2
        match ecAdd (ecMul 384 (e * w % ecN) (some ecG)) (ecMul 384 (sig.1 * w % ecN) (some key)) with
        | none => false
        | some q => q.1 % ecN == sig.1)

/-- SHA-384 of a public key, x then y, big-endian (Table 17.2). -/
def keyHash (k : Nat × Nat) : Nat := sha384 (bytesBE 48 k.1 ++ bytesBE 48 k.2)

end Sys2Proof.Machine
end

