-- ==== Sys2Proof/Machine/Security.lean ====
section
/-! DEFINITION. Machine/Security.lean: debug sessions (R454-R463), tamper (R451-R453), the life cycle (R446-R450) and what the
debug connector does (R454-R456). -/

namespace Sys2Proof.Machine

/-- The life-cycle state (Table 17.1). -/
def Chip.lcState (c : Chip) : Nat := c.fld R.SEC_LC F.SEC_LC_STATE

/-- The serial number as the 16 bytes that digests take, big-endian (R447, R449, R459). -/
def Chip.serialBytes (c : Chip) : List Byte := bytesBE 16 c.fuses.serial

/-! ## Opening and closing a session -/

/-- Table 17.7: does the life-cycle state admit the method and the level? -/
def lcAdmits (lc method level : Nat) : Bool :=
  match lc with
  | 0 => true
  | 2 | 3 => if method = 1 then level == 1 else decide (level ≤ 2)
  | 1 | 4 => method != 1
  | _ => false

/-- R460: refuse an open with a reason: ST_AUTH and EV266; reasons 0x01 and 0x02 count, and the eighth locks opens out for 600 s. -/
def Chip.refuseOpen (c : Chip) (cmd : Cmd) (reason : Nat) : Chip :=
  let n := c.fld R.DBG_STAT F.DBG_STAT_FAIL_COUNT
  let c1 :=
    if reason ≤ 2 then
      let c := c.setFld R.DBG_STAT F.DBG_STAT_FAIL_COUNT (min 8 (n + 1))
      if 8 ≤ n + 1 then
        ({ c with sec := { c.sec with lockEnd := some (c.now + 600000000000) } } : Chip).raise 267 600
      else c
    else c
  (c1.raise 266 reason).respond cmd St.auth [wNat reason]

/-- R44, R454, R461: grant a level: a SAFE partition moves to MAINTENANCE first; a session that the partition holds is
replaced; EV264 is raised and the handles of the discarded jobs are answered. -/
def Chip.grantSession (c : Chip) (m : Memory) (cmd : Cmd) (level cred : Nat) : Chip :=
  let p := cmd.part % 4
  let hs := if c.safePart p then c.openHandles p else []
  let c1 := if c.safePart p then c.forceMaint m p else c
  let cred := if c.lcState = 0 then 0 else cred
  let w := fat F.DBG_SESSION_OPEN 1 + fat F.DBG_SESSION_CRED cred + fat F.DBG_SESSION_LEVEL level
  let c2 := (c1.setReg (R.DBG_SESSION p) (wNat w)).setFld (R.PAR_STATUS p) F.PAR_STATUS_DEBUG 1
  ((c2.setFld R.DBG_STAT F.DBG_STAT_FAIL_COUNT 0).raise 264 (cred * 2 ^ 8 + level)).respond cmd St.ok (hs.map wNat)

/-- R458: does the password match the fused hash? In BLANK its value is not used. -/
def Chip.passwordMatches (c : Chip) (cmd : Cmd) : Bool :=
  c.lcState == 0
    || sha384 (c.serialBytes ++ (cmd1Bytes cmd 1).take 32) / 2 ^ 128 == c.fuses.ownerPwd

/-- A 48-byte big-endian value in six words, the first byte in bits [63:56] (Table 17.5). -/
def sixWords (cmd : Cmd) (k : Nat) : Nat := ((cmd.params.drop k).take 6).foldl (fun a w => a * 2 ^ 64 + w.toNat) 0

/-- R459: the 54-byte message under the signature. -/
def Chip.sessionMessage (c : Chip) (nonce p level : Nat) : List Byte :=
  [0x4B#8, 0x58#8, 0x44#8, 0x42#8] ++ bytesLE 32 nonce ++ c.serialBytes ++ [BitVec.ofNat 8 p, BitVec.ofNat 8 level]

/-- Does a key of the hub key store verify a signature over a digest? -/
def keySigns (key : Option (Nat × Nat)) (digest : Nat) (sig : Nat × Nat) : Bool :=
  match key with
  | some k => ecdsaOk k digest sig
  | none => false

/-- R459, Table 17.7: the credential that a signed response shows: 2 owner, 3 vendor, none when no admitted key verifies it. In BLANK
the value is not used. -/
def Chip.credOf (c : Chip) (digest : Nat) (sig : Nat × Nat) : Option Nat :=
  let owner := keySigns c.sec.ownerKey digest sig
  let vendor := keySigns c.sec.vendorKey digest sig
  if c.lcState = 0 then some 0
  else if owner && (c.lcState == 2 || c.lcState == 3) then some 2
  else if vendor then some 3
  else none

/-- The nonce of a partition while it is valid (R459). -/
def Chip.nonceOf (c : Chip) (p : Nat) : Option (Nat × Nat) :=
  match mget? c.sec.nonces p with
  | some (level, v, t) => if c.now < t + 60000000000 then some (level, v) else none
  | none => none

/-- METHOD 2 (R459): a nonce is drawn and replaces the partition's. -/
def Chip.drawNonce (c : Chip) (cmd : Cmd) (level : Nat) : Chip :=
  let v := (Config.nonce c.freeCtr).toNat
  let p := cmd.part % 4
  let c1 := { c.fresh with sec := { c.sec with nonces := mset c.sec.nonces p (level, v, c.now) } }
  c1.respond cmd St.ok ((List.range 4).map fun k => wNat (v / 2 ^ (64 * k)))

/-- METHOD 3 (R459): the nonce is used up by the check, whatever its outcome. -/
def Chip.signedResponse (c : Chip) (m : Memory) (cmd : Cmd) (level : Nat) : Chip :=
  let p := cmd.part % 4
  let n := c.nonceOf p
  let c1 := { c with sec := { c.sec with nonces := mdel c.sec.nonces p } }
  match n with
  | none => c1.refuseOpen cmd 3
  | some (lv, v) =>
    if lv ≠ level then c1.refuseOpen cmd 3
    else match c.credOf (sha384 (c.sessionMessage v p level)) (sixWords cmd 1, sixWords cmd 7) with
      | none => c1.refuseOpen cmd 2
      | some cred => c1.grantSession m cmd level cred

/-- CMD_DEBUG_OPEN after steps 1 to 6 (R457-R460), with the order of the reasons. -/
def Chip.debugOpen (c : Chip) (m : Memory) (cmd : Cmd) : Chip :=
  let method := bits (cmd.p 0) 9 8
  let level := cmd.p 0 % 8
  if method = 0 then (c.closeSession (cmd.part % 4) 0).respond cmd St.ok []
  else if c.flag R.SEC_TAMPER_STAT F.SEC_TAMPER_STAT_LATCHED then c.refuseOpen cmd 6
  else if c.sec.lockEnd.isSome then c.refuseOpen cmd 5
  else if !lcAdmits c.lcState method level then c.refuseOpen cmd 4
  else if method = 1 then (if c.passwordMatches cmd then c.grantSession m cmd 1 1 else c.refuseOpen cmd 1)
  else if method = 2 then c.drawNonce cmd level
  else c.signedResponse m cmd level

/-- Serve CMD_DEBUG_OPEN. -/
def serveDebug (s : State) (c : Cmd) : Chip := s.chip.serve 0x50 c fun x cmd => x.debugOpen s.mem cmd

/-! ## Tamper -/

/-- The lid filter in nanoseconds (Table 17.10): 0 acts as 1 ms. -/
def Chip.lidFilterNs (c : Chip) : Nat := max 1 (c.fld R.SEC_TAMPER_CTRL F.SEC_TAMPER_CTRL_LID_FILTER) * 1000000

/-- Is tamper armed (Table 17.1)? -/
def Chip.tamperArmed (c : Chip) : Bool := decide (2 ≤ c.lcState) || c.flag R.SEC_TAMPER_CTRL F.SEC_TAMPER_CTRL_ARM

/-- R452: a tamper detection: counted; while armed the secure regions and the hub key store are wiped, the sessions close, LATCHED is set
and EV270 raised. -/
def Chip.tamper (c : Chip) : Chip :=
  let c1 := c.addFld R.SEC_TAMPER_STAT F.SEC_TAMPER_STAT_COUNT 1
  if !c1.tamperArmed then c1
  else
    let c2 := (c1.startWipe 2).closeSessions 2
    let c3 := { c2 with sec := { c2.sec with vendorKey := none, ownerKey := none, nonces := [] } }
    (c3.setFld R.SEC_TAMPER_STAT F.SEC_TAMPER_STAT_LATCHED 1).raise 270

/-- R451: the lid has been open for the filter time. -/
def Chip.lidDue (c : Chip) : Chip :=
  match c.sec.lidOpenAt with
  | some t =>
    if t + c.lidFilterNs ≤ c.now then
      (({ c with sec := { c.sec with lidOpenAt := none } } : Chip).setFld R.SEC_TAMPER_STAT F.SEC_TAMPER_STAT_LID_OPEN 1).tamper
    else c
  | none => c

/-- R451: the mesh has read open or shorted for 10 µs. -/
def Chip.meshDue (c : Chip) : Chip :=
  match c.sec.meshAt with
  | some t => if t + 10000 ≤ c.now then ({ c with sec := { c.sec with meshAt := none } } : Chip).tamper else c
  | none => c

/-- R493: an opening that was shorter than the filter; the 256th since the last EV276 raises it. -/
def Chip.shortOpening (c : Chip) (t : Nat) : Chip :=
  let n := c.sec.shortOpens + 1
  let ms := max c.sec.longestMs ((c.now - t) / 1000000)
  if n = 256 then ({ c with sec := { c.sec with shortOpens := 0, longestMs := 0 } } : Chip).raise 276 ms
  else { c with sec := { c.sec with shortOpens := n, longestMs := ms } }

/-- The lid loop opens or closes (R451, R509). -/
def Chip.lidChange (c : Chip) (closed : Bool) : Chip :=
  if closed == c.pins.loopClosed then c
  else
    let c1 := { c with pins := { c.pins with loopClosed := closed } }
    if !closed then { c1 with sec := { c1.sec with lidOpenAt := some c.now } }
    else
      let c2 := ({ c1 with sec := { c1.sec with lidOpenAt := none } } : Chip).setFld R.SEC_TAMPER_STAT F.SEC_TAMPER_STAT_LID_OPEN 0
      match c.sec.lidOpenAt with
      | some t => c2.shortOpening t
      | none => c2

/-- The mesh opens, shorts or recovers (R451). -/
def Chip.meshChange (c : Chip) (op sh : Bool) : Chip :=
  let was := c.pins.meshOpen || c.pins.meshShort
  let c1 := { c with pins := { c.pins with meshOpen := op, meshShort := sh } }
  let c2 := (c1.setFld R.SEC_TAMPER_STAT F.SEC_TAMPER_STAT_MESH_OPEN (b2n op)).setFld R.SEC_TAMPER_STAT
    F.SEC_TAMPER_STAT_MESH_SHORT (b2n sh)
  if !(op || sh) then { c2 with sec := { c2.sec with meshAt := none } }
  else if was then c2
  else { c2 with sec := { c2.sec with meshAt := some c.now } }

/-- TAMPER_INPUT_CHANGE: a filter time that had already passed counts first; nothing is watched in Off (R509). -/
def Chip.tamperInputs (c : Chip) (closed op sh : Bool) : Chip :=
  if c.powered then ((c.lidDue.meshDue).lidChange closed).meshChange op sh
  else { c with pins := { c.pins with loopClosed := closed, meshOpen := op, meshShort := sh } }

/-! ## Life cycle -/

/-- A byte of the serial flash. -/
def flashGet (m : Memory) (off : Nat) : Byte := (memGet? m (0x800000000000 + off)).getD (Config.flashByte off)

/-- Bytes of the serial flash. -/
def flashBytes (m : Memory) (off n : Nat) : List Byte := (List.range n).map fun i => flashGet m (off + i)

/-- A little-endian word of the serial flash. -/
def flashWord (m : Memory) (off : Nat) : Nat := natLE (flashBytes m off 8)

/-- Flash offset of an image set: 0 A, 1 B (Table 16.2). -/
def setBase (k : Nat) : Nat := k * 0x1000000

/-- SVN of an image set (Table 16.3). -/
def setSvn (m : Memory) (k : Nat) : Nat := bits (flashWord m (setBase k + 8)) 47 32

/-- The fields that a request burns, in the order of Table 17.2, each big-endian at its table width. -/
def lcFields (r : LcReq) : List Byte :=
  if r.number = 2 then bytesBE 48 r.ownerHash ++ bytesBE 32 r.ownerPwd ++ bytesBE 8 r.minSvn
  else if r.number = 0 then bytesBE 8 r.minSvn
  else []

/-- R449: the digest under the signatures of a request. -/
def Chip.lcDigest (c : Chip) (r : LcReq) : Nat := sha384 (c.serialBytes ++ [BitVec.ofNat 8 r.number] ++ lcFields r)

/-- R449: a signature verifies under the running image's key, or the one supplied, and that key has the fused hash. -/
def lcSigned (digest hash : Nat) (stored given : Option (Nat × Nat)) (sig : Option (Nat × Nat)) : Bool :=
  match stored.orElse fun _ => given, sig with
  | some k, some s => keyHash k == hash && ecdsaOk k digest s
  | _, _ => false

/-- Is the request signed by the owner? -/
def Chip.ownerSigned (c : Chip) (r : LcReq) : Bool :=
  lcSigned (c.lcDigest r) c.fuses.ownerHash c.sec.ownerKey r.ownerKey r.ownerSig

/-- Is the request signed by the vendor? -/
def Chip.vendorSigned (c : Chip) (r : LcReq) : Bool :=
  lcSigned (c.lcDigest r) c.fuses.vendorHash c.sec.vendorKey r.vendorKey r.vendorSig

/-- Table 17.3: is the transition one of the state, and does it carry the signatures required? -/
def Chip.lcAllowed (c : Chip) (r : LcReq) : Bool :=
  let st := c.lcState
  match r.number with
  | 1 => st == 0 && c.vendorSigned r
  | 2 => st == 1 && c.vendorSigned r
  | 3 => st == 2 && c.ownerSigned r
  | 4 => st == 3 && c.ownerSigned r && c.vendorSigned r
  | 5 => st != 5 && (c.vendorSigned r || (decide (2 ≤ st) && c.ownerSigned r))
  | _ => false

/-- R450: may a transition be carried out now? -/
def Chip.lcMoment (c : Chip) : Bool :=
  c.moduleMode == 0 && ((List.range 4).all fun p => !c.parEn p) && c.pState == 0 && !c.flag R.PWR_STAT F.PWR_STAT_BUSY

/-- What a transition burns (Table 17.3); a burned bit stays burned (R447). -/
def burn (f : Fuses) (r : LcReq) : Fuses :=
  let g := { f with lc := Nat.lor f.lc (7 * 2 ^ (3 * (r.number - 1))) }
  if r.number = 2 then
    { g with ownerHash := Nat.lor g.ownerHash r.ownerHash, ownerPwd := Nat.lor g.ownerPwd r.ownerPwd,
             minSvn := Nat.lor g.minSvn r.minSvn }
  else if r.number = 5 then { g with ownerHash := 2 ^ 384 - 1, ownerPwd := 2 ^ 256 - 1 }
  else g

/-- End a request with its result (Table 21.4), which SMB_ALERT_N tells of (R510). -/
def Chip.lcEnd (c : Chip) (number result : Nat) : Chip :=
  { c with sec := { c.sec with lcParts := [], lcClosed := false, lcNumber := number % 256, lcResult := result },
           svc := { c.svc with opDone := true } }

/-- Refuse a request: EV269. -/
def Chip.lcRefuse (c : Chip) (number : Nat) : Chip := (c.lcEnd number 2).raise 269 (number % 256)

/-- R450: carry out or refuse the transition that waits. -/
def Chip.lcTransition (c : Chip) : Chip :=
  let r := Config.lcParse c.sec.lcParts
  if !c.sec.lcClosed || r.number == 0 then c
  else if c.flag R.SEC_TAMPER_STAT F.SEC_TAMPER_STAT_LATCHED || !c.lcMoment || !c.lcAllowed r then c.lcRefuse r.number
  else
    let c1 := (c.closeSessions 3).startWipe 3
    let c2 := { c1 with
      sec := { c1.sec with vendorKey := none, ownerKey := none, nonces := [], lcResetAt := some (c.now + 1000000) },
      fuses := burn c1.fuses r }
    c2.lcEnd r.number 1

/-- R450: raise MIN_SVN, or refuse. -/
def Chip.svnRaise (c : Chip) (m : Memory) : Chip :=
  let r := Config.lcParse c.sec.lcParts
  if !c.sec.lcClosed || r.number != 0 then c
  else
    let new := Nat.lor c.fuses.minSvn r.minSvn
    let n := popcount 64 new
    if c.flag R.SEC_TAMPER_STAT F.SEC_TAMPER_STAT_LATCHED || !c.ownerSigned r || decide (setSvn m 0 < n)
        || decide (setSvn m 1 < n) then c.lcRefuse 0
    else ({ c with fuses := { c.fuses with minSvn := new } } : Chip).lcEnd 0 1

/-! ## The debug connector (R454-R456) -/

/-- The level of the session that a partition holds, 0 for none. -/
def Chip.dbgLevel (c : Chip) (p : Nat) : Nat := if c.sessionOpen p then c.fld (R.DBG_SESSION p) F.DBG_SESSION_LEVEL else 0

/-- Table 17.8: control of a fenced unit is refused and latches FAB_DEFERR of H. -/
def Chip.debugRefused (c : Chip) (p a : Nat) : Chip := c.deferr 4 (debugWho p false) true a

/-- May the session of a cluster's partition control it? Answers the partition. -/
def Chip.controls (c : Chip) (n : Nat) : Option Nat :=
  match c.partOf (n / 12) with
  | some p => if 2 ≤ c.dbgLevel p ∧ c.faults.halted = false then some p else none
  | none => none

/-- Run a control on a cluster within the session's level. -/
def Chip.control (c : Chip) (n : Nat) (f : Cluster → Cluster) : Chip :=
  match c.controls n with
  | none => c
  | some p =>
    if c.cluFenced n || c.dieFenced (n / 12) then c.debugRefused p (R.FOX_CTRL n)
    else c.setClu n (f (c.clu n))

/-- R455: a job whose cluster has been held for longer than a second ends as by CMD_JOB_ABORT, SOURCE 0. -/
def Chip.haltTimeout (c : Chip) (m : Memory) (n : Nat) : Chip :=
  match (c.clu n).haltAt with
  | some t => if t + 1000000000 < c.now then (c.jobOn n).foldl (fun c h => c.discardJob m h St.aborted 0 0) c else c
  | none => c

/-- May a session of partition p reach an address (R454, Table 17.8)? Registers and memory of its dies; of a fenced partition only the
fault records are read. -/
def Chip.debugReaches (c : Chip) (p a : Nat) (write : Bool) : Bool :=
  if !c.flag (R.PAR_STATUS p) F.PAR_STATUS_FENCED then true
  else match regDecode a with
    | some (d, die, _, _) => !write && d.block == 0x1C && (c.diesOf p).contains die
    | none => false

/-- A read or a write of one word over the debug connector. -/
def debugAccess (c : Chip) (m : Memory) (p : Nat) (write : Bool) (a : Nat) (w : Word) : Chip × Memory :=
  let lv := c.dbgLevel p
  let who := debugWho p (lv == 3)
  if lv = 0 ∨ (write = true ∧ lv < 2) then (c, m)
  else if !c.debugReaches p a write then (c.deferr 4 who write a, m)
  else if c.silent who a then (c, m)
  else
    let reply := fun (c : Chip) (v : Word) => ({ c with sec := { c.sec with dbgReply := v } } : Chip)
    if c.flag (R.PAR_STATUS p) F.PAR_STATUS_FENCED then (reply c (c.readReg a), m)
    else match c.route who a write with
      | .deflt d => (c.deferr d who write a, m)
      | .abort => (c, m)
      | .register r => if write then debugWrite c m p r w else (reply c (c.readReg r), m)
      | .word key fold loc =>
        if write then
          let r := writeWord c m key fold loc w.toNat 255
          (c.masterHit m r.2.2 who.port [] false, r.1)
        else
          let r := readStored c m key fold loc
          (reply (c.masterHit m r.hit who.port [] false) (wNat r.data), m)

/-- R456: EXTEST drives the pins at DL3 while no partition is enabled, the module is in BOOT and no port is UP; else it acts as
BYPASS. -/
def Chip.extestDrive (c : Chip) (drive : List Bool) : Chip :=
  let on := ((List.range 4).any fun p => c.dbgLevel p == 3) && ((List.range 4).all fun p => !c.parEn p)
    && c.moduleMode == 0 && (List.range 4).all fun p => !c.portUp p
  { c with pins := { c.pins with driven := if on then some drive else none } }

/-! ## Meanings -/

/-- DEBUG_CLOSE (R461): CMD_DEBUG_OPEN with METHOD 0. -/
def execDebugClose (c : Cmd) (s : State) : Out := s.goChip (serveDebug s c)

/-- DEBUG_PASSWORD (R458): METHOD 1. -/
def execDebugPassword (c : Cmd) (s : State) : Out := s.goChip (serveDebug s c)

/-- DEBUG_NONCE_REQUEST (R459): METHOD 2. -/
def execDebugNonceRequest (c : Cmd) (s : State) : Out := s.goChip (serveDebug s c)

/-- DEBUG_SIGNED_RESPONSE (R459): METHOD 3. -/
def execDebugSignedResponse (c : Cmd) (s : State) : Out := s.goChip (serveDebug s c)

/-- NONCE_EXPIRY (R459): 60 s after it was drawn the nonce is dropped. -/
def execNonceExpiry (p : Fin 4) (s : State) : Out :=
  let c := s.chip
  s.goChip (if (c.nonceOf p.val).isSome then c else { c with sec := { c.sec with nonces := mdel c.sec.nonces p.val } })

/-- LOCKOUT_END (R460). -/
def execLockoutEnd (s : State) : Out :=
  let c := s.chip
  match c.sec.lockEnd with
  | some t =>
    if t ≤ c.now then
      s.goChip ((({ c with sec := { c.sec with lockEnd := none } } : Chip).setFld R.DBG_STAT F.DBG_STAT_FAIL_COUNT 4).raise 268)
    else .next s
  | none => .next s

/-- TAMPER_INPUT_CHANGE (R451, R509). -/
def execTamperInputChange (closed meshOpen meshShort : Bool) (s : State) : Out :=
  s.goChip (s.chip.tamperInputs closed meshOpen meshShort)

/-- LID_FILTER_EXPIRY (R451, R452): the filter time of the lid or of the mesh has passed. -/
def execLidFilterExpiry (s : State) : Out := s.goChip (if s.chip.powered then s.chip.lidDue.meshDue else s.chip)

/-- LC_TRANSITION (R449, R450). -/
def execLcTransition (s : State) : Out := s.goChip s.chip.lcTransition

/-- MIN_SVN_RAISE (R450). -/
def execMinSvnRaise (s : State) : Out := s.goChip (s.chip.svnRaise s.mem)

/-- DEBUG_HALT (R455). -/
def execDebugHalt (cl : Fin 48) (s : State) : Out :=
  s.goChip (s.chip.control cl.val fun x =>
    { x with haltAt := some (x.haltAt.getD s.chip.now), stepOne := false })

/-- DEBUG_STEP (R455): the next instruction word that the members take is the step's. -/
def execDebugStep (cl : Fin 48) (s : State) : Out :=
  s.goChip (s.chip.control cl.val fun x => if x.haltAt.isSome then { x with stepOne := true } else x)

/-- DEBUG_RESUME (R455). -/
def execDebugResume (cl : Fin 48) (s : State) : Out :=
  s.goChip (s.chip.control cl.val fun x => { x with haltAt := none, stepOne := false })

/-- DEBUG_HALT_TIMEOUT (R455). -/
def execDebugHaltTimeout (cl : Fin 48) (s : State) : Out := s.goChip (s.chip.haltTimeout s.mem cl.val)

/-- DEBUG_PORT_ACCESS (R454, R464). -/
def execDebugPortAccess (p : Fin 4) (write : Bool) (addr : Nat) (w : Word) (s : State) : Out :=
  let r := debugAccess s.chip s.mem p.val write addr w
  s.goBoth r.1 r.2

/-- EXTEST (R456). -/
def execExtest (drive : List Bool) (s : State) : Out := s.goChip (s.chip.extestDrive drive)

end Sys2Proof.Machine
end

