-- ==== Sys2Proof/Machine/Startup.lean ====
section
/-! DEFINITION. Machine/Startup.lean: resets (R370, R400, R428, R504), the start-up stages (Table 16.1), image sets and their checks
(R433-R436), HOST_READY (R431) and CMD_RESET (R418). -/

namespace Sys2Proof.Machine

/-! ## Resets -/

/-- The place whose byte or check byte a key stands for. -/
def placeOf (k : Nat) : Nat := if 2 ^ 48 ≤ k then (k - 2 ^ 48) * 8 else k

/-- Does a stored byte survive a module reset: scratch (R218) and flash? DRAM contents become undefined (R334), hub SRAM and the Dens are
lost (R229). -/
def survivesReset (k : Nat) : Bool :=
  (decide (0x400000000000 ≤ placeOf k) && decide (placeOf k < 0x500000000000))
    || (decide (0x800000000000 ≤ k) && decide (k < 2 ^ 48))

/-- Does a stored byte survive Off: flash alone? -/
def survivesOff (k : Nat) : Bool := decide (0x800000000000 ≤ k) && decide (k < 2 ^ 48)

/-- Is an address a register of the LNK block, which only power-on resets (R400)? -/
def isLnkReg (a : Nat) : Bool := match regDecode a with | some (d, _, _, _) => d.block == 0x03 | none => false

/-- Copy the fields of a register that a reset keeps. -/
def keepFld (old new : Chip) (a : Nat) (f : Fld) : Chip := new.setFld a f (old.fld a f)

/-- R370, R400: a module reset clears everything but the fuses, the flash, the LNK block with its ports, the count of wipes with the last
cause (Table 8.8) and the count of tamper detections (Table 17.11); the sequence starts when `go` holds. -/
def Chip.moduleReset (c : Chip) (go : Bool) : Chip :=
  let l := c.resetLinks
  let n : Chip := { now := c.now, resetAt := c.now, freeCtr := c.freeCtr, ports := l.ports, flash := c.flash, fuses := c.fuses,
                    regs := l.regs.filter fun e => isLnkReg e.1 }
  let n1 := (List.range 4).foldl (fun n d =>
    keepFld c (keepFld c n (R.SCR_SEC_STAT d) F.SCR_SEC_STAT_WIPE_COUNT) (R.SCR_SEC_STAT d) F.SCR_SEC_STAT_LAST_CAUSE) n
  let n2 := keepFld c n1 R.SEC_TAMPER_STAT F.SEC_TAMPER_STAT_COUNT
  let n3 := (n2.setFld R.SEC_TAMPER_STAT F.SEC_TAMPER_STAT_MESH_OPEN (b2n c.pins.meshOpen)).setFld R.SEC_TAMPER_STAT
    F.SEC_TAMPER_STAT_MESH_SHORT (b2n c.pins.meshShort)
  { n3 with pins := { c.pins with started := go, safeA := false, safeB := go, driven := none } }

/-- What a module reset leaves of the stored words. -/
def resetMem (m : Memory) : Memory := memForget m fun k => !survivesReset k

/-- A reset of the module from its pins or from Terind: the sequence starts while RESET_N and PWR_GOOD are high (R428). -/
def resetModule (c : Chip) (m : Memory) : Chip × Memory :=
  (c.moduleReset (c.pins.resetN && c.pins.pwrGood), resetMem m)

/-- A feed's fields of PWR_STAT: in range, and its voltage. -/
def Chip.setFeed (c : Chip) (feed : Nat) (ok : Bool) (volts : Nat) : Chip :=
  if feed = 0 then (c.setFld R.PWR_STAT F.PWR_STAT_FEED1_OK (b2n ok)).setFld R.PWR_STAT F.PWR_STAT_FEED1_V volts
  else (c.setFld R.PWR_STAT F.PWR_STAT_FEED2_OK (b2n ok)).setFld R.PWR_STAT F.PWR_STAT_FEED2_V volts

/-- R370, R466: power arrives on a feed. From Off everything but the fuses and the flash is as after power-on; a module that runs only
gains the feed. The feed's voltage within 40 to 60 V is open. -/
def powerOn (c : Chip) (m : Memory) (feed : Nat) : Chip × Memory :=
  let volts := 40 + Config.freeNat c.freeCtr % 21
  if c.powered then
    (if c.flag R.PWR_STAT (if feed = 0 then F.PWR_STAT_FEED1_OK else F.PWR_STAT_FEED2_OK) then c
      else (c.fresh.setFeed feed true volts).raise (247 + feed), m)
  else
    let n : Chip := { now := c.now, resetAt := c.now, freeCtr := c.freeCtr + 1, flash := c.flash, fuses := c.fuses }
    let go := c.pins.resetN && c.pins.pwrGood
    let n1 := { n with pins := { c.pins with started := go, safeA := false, safeB := go, driven := none } }
    let n2 := (n1.setFld R.SEC_TAMPER_STAT F.SEC_TAMPER_STAT_MESH_OPEN (b2n c.pins.meshOpen)).setFld R.SEC_TAMPER_STAT
      F.SEC_TAMPER_STAT_MESH_SHORT (b2n c.pins.meshShort)
    (n2.setFeed feed true volts, memForget m fun k => !survivesOff k)

/-- R504: a low of RESET_N shorter than 1 µs is ignored, one of 10 µs or longer is a reset; between them the filter decides. -/
def resetTaken (lowNs : Nat) (taken : Bool) : Bool := decide (10000 ≤ lowNs) || (decide (1000 ≤ lowNs) && taken)

/-- R428: PWR_GOOD falls, which holds the module in reset, or rises, which starts the sequence while RESET_N is high. -/
def pwrGoodChange (c : Chip) (m : Memory) (level : Bool) : Chip × Memory :=
  let c1 := { c with pins := { c.pins with pwrGood := level } }
  if !c.powered || level == c.pins.pwrGood then (c1, m)
  else if level then
    ({ c1 with resetAt := if c.pins.resetN then c.now else c.resetAt,
               pins := { c1.pins with started := c.pins.resetN, safeB := c.pins.resetN } }, m)
  else (c1.moduleReset false, resetMem m)

/-! ## Stages (Table 16.1) -/

/-- HUB_BOOT_STAT.STAGE. -/
def Chip.stage (c : Chip) : Nat := c.fld R.HUB_BOOT_STAT F.HUB_BOOT_STAT_STAGE

/-- Does the sequence stand in a stage? -/
def Chip.inStage (c : Chip) (k : Nat) : Bool := c.powered && c.pins.started && c.stage == k

/-- Go to a stage. -/
def Chip.toStage (c : Chip) (k : Nat) : Chip := c.setFld R.HUB_BOOT_STAT F.HUB_BOOT_STAT_STAGE k

/-- Stage 0x1: a failure is source 0x51 and HALTED (R429), in which the sequence stays; the filters of R451 start with stage 0x2. -/
def Chip.romSelftest (c : Chip) (m : Memory) (ok : Bool) : Chip :=
  if !c.inStage 1 || c.faults.halted then c
  else if !ok then c.detect m (badgerDetection 0x51 false)
  else
    let lid := if c.pins.loopClosed then none else some c.now
    let mesh := if c.pins.meshOpen || c.pins.meshShort then some c.now else none
    ({ c with sec := { c.sec with lidOpenAt := lid, meshAt := mesh } } : Chip).toStage 2

/-- Hub SRAM and both Badger Dens hold zero (R229). -/
def zeroHub (m : Memory) : Memory :=
  let z := fun (_ : Nat) => 0
  memFill z (denBase 145) 0 0x2000 (memFill z (denBase 144) 0 0x2000 (memFill z 0x500000000000 0 0x200000 m))

/-- The links between the dies come up (FAB_LINK_STAT.UP). DESIGN CHOICE: the manual names no stage for it. -/
def Chip.linksUp (c : Chip) : Chip :=
  (List.range 5).foldl (fun c d => (List.range (if d = 4 then 4 else 3)).foldl (fun c i =>
    c.setFld (R.FAB_LINK_STAT d i) F.FAB_LINK_STAT_UP 1) c) c

/-- Stage 0x2: fuses and life-cycle state, zeroes, and the wipe of the secure regions, which ends within the stage. -/
def hubInit (c : Chip) (m : Memory) : Chip × Memory :=
  if !c.inStage 2 then (c, m)
  else
    let c1 := (c.setFld R.SEC_LC F.SEC_LC_STATE (lcStateOf c.fuses.lc)).linksUp
    ((((c1.startWipe 1).wipeEnd).toStage 3), wipeMem (zeroHub m))

/-! ## Image sets -/

/-- The public key of an image set. -/
def imageKey (m : Memory) (b : Nat) : Nat × Nat := (natBE (flashBytes m (b + 0x20) 48), natBE (flashBytes m (b + 0x50) 48))

/-- TERIND_LEN and EXEC_LEN. -/
def imageLens (m : Memory) (b : Nat) : Nat × Nat := (flashWord m (b + 8) % 2 ^ 32, flashWord m (b + 0x10) % 2 ^ 32)

/-- Check 2 of Table 16.4. -/
def imageForm (m : Memory) (b : Nat) : Bool :=
  let w1 := flashWord m (b + 8)
  let w2 := flashWord m (b + 0x10)
  let l := imageLens m b
  flashWord m b == 0x544552494E440003 && bits w1 63 48 == 1 && bits w2 63 32 == 0
    && l.1 % 64 == 0 && decide (l.1 ≤ 0x400000) && l.2 % 64 == 0 && decide (l.2 ≤ 0x30000)

/-- Check 3: whose key it is: 1 vendor, 2 owner, where the life-cycle state lets the owner sign images (Table 17.1). -/
def Chip.imageSigner (c : Chip) (m : Memory) (b : Nat) : Option Nat :=
  let h := keyHash (imageKey m b)
  let lc := lcStateOf c.fuses.lc
  if h = c.fuses.vendorHash then some 1
  else if h = c.fuses.ownerHash ∧ (lc = 2 ∨ lc = 3) then some 2
  else none

/-- The Terind image followed by the executive image. -/
def imageBody (m : Memory) (b : Nat) : List Byte :=
  let l := imageLens m b
  flashBytes m (b + 0x100) (l.1 + l.2)

/-- R434: the signed digest. -/
def imageDigest (m : Memory) (b : Nat) : Nat := sha384 (flashBytes m b 0x80 ++ imageBody m b)

/-- Checks 2 to 7 of Table 16.4 in their order: the code of the first that fails, 0 when all pass. -/
def Chip.imageCheck (c : Chip) (m : Memory) (b : Nat) (readOk : Bool) : Nat :=
  if !imageForm m b then 2
  else if (c.imageSigner m b).isNone then 3
  else if bits (flashWord m (b + 8)) 47 32 < popcount 64 c.fuses.minSvn then 4
  else if !readOk then 1
  else if sha384 (imageBody m b) / 2 ^ 128 ≠ natBE (flashBytes m (b + 0xE0) 32) then 5
  else if !ecdsaOk (imageKey m b) (imageDigest m b)
      (natBE (flashBytes m (b + 0x80) 48), natBE (flashBytes m (b + 0xB0) 48)) then 6
  else 0

/-- The code of a set at boot: check 1 comes first. -/
def Chip.bootCheck (c : Chip) (m : Memory) (b : Nat) (readOk : Bool) : Nat :=
  if lcStateOf c.fuses.lc = 5 then 7 else c.imageCheck m b readOk

/-- Copy bytes of the flash to stored words. -/
def copyFlash (m : Memory) (off n key fold : Nat) (dst : Memory) : Memory :=
  memFill (fun i => flashWord m (off + 8 * i)) key fold (n / 8) dst

/-- An accepted set: its Terind image goes to hub SRAM, its key to the hub key store, IMAGE names it, and stage 0x5 follows. -/
def acceptImage (c : Chip) (m : Memory) (k : Nat) : Chip × Memory :=
  let b := setBase k
  let key := imageKey m b
  let sec := if c.imageSigner m b = some 1 then { c.sec with vendorKey := some key } else { c.sec with ownerKey := some key }
  let c1 : Chip := { c with sec := sec, mgmt := { c.mgmt with release := wNat (flashWord m (b + 0x18)) } }
  ((c1.setFld R.HUB_BOOT_STAT F.HUB_BOOT_STAT_IMAGE (k + 1)).toStage 5,
   copyFlash m (b + 0x100) (imageLens m b).1 0x500000000000 0 m)

/-- Stages 0x3 and 0x4 (R435, R436): B is tried only when A is refused; when both are refused the sequence stops in stage 0xF. -/
def bootImage (c : Chip) (m : Memory) (k : Nat) (readOk : Bool) : Chip × Memory :=
  if !c.inStage (3 + k) then (c, m)
  else
    let code := c.bootCheck m (setBase k) readOk
    if code = 0 then acceptImage c m k
    else if k = 0 then ((c.setFld R.HUB_BOOT_STAT F.HUB_BOOT_STAT_A_CAUSE code).toStage 4, m)
    else
      (((c.setFld R.HUB_BOOT_STAT F.HUB_BOOT_STAT_B_CAUSE code).setFld R.HUB_BOOT_STAT F.HUB_BOOT_STAT_FAILED 1).toStage 0xF, m)

/-- Stage 0x5: Terind starts from hub SRAM on both Badger cores. -/
def Chip.terindStart (c : Chip) : Chip :=
  if !c.inStage 5 then c else ((c.setCore 144 terindCore).setCore 145 terindCore).toStage 6

/-! ## Memory -/

/-- Set the training outcome of physical channel n of domain d. -/
def Chip.trainedPch (c : Chip) (d n : Nat) (ok : Bool) : Chip :=
  let a := pchStat d n
  (c.setFld a F.MEM_PCH_STAT_TRAINED (b2n ok)).setFld a F.MEM_PCH_STAT_TRAIN_FAIL (b2n (!ok))

/-- Power every stack and train every PHY (R429): channels that fail are recorded as source 0x18 and fenced. -/
def Chip.trainAll (c : Chip) (m : Memory) (fails : List (Nat × Nat)) : Chip :=
  let bad := fun (d n : Nat) => fails.contains (d, n)
  let c1 := (List.range 8).foldl (fun c s =>
    let ok := (List.range 32).any fun i => !bad (s / 2) (32 * (s % 2) + i)
    (c.setFld (R.MEM_STAT s) F.MEM_STAT_PSTATE 0).setFld (R.MEM_STAT s) F.MEM_STAT_TRAINED (b2n ok)) c
  (List.range 256).foldl (fun c i =>
    let d := i / 64
    let n := i % 64
    if bad d n then (c.trainedPch d n false).detect m (pchDetection d n) else c.trainedPch d n true) c1

/-- R171: the self-test of every spare that serves no logical channel and has not failed. -/
def Chip.testSpares (c : Chip) (fails : List (Nat × Nat)) : Chip :=
  fails.foldl (fun c e =>
    let a := R.RES_PCH e.1 e.2
    if c.fld a F.RES_PCH_STATE = 1 then c.setFld a F.RES_PCH_STATE 6 else c) c

/-- R182: re-apply a recorded substitution, without a copy. -/
def Chip.reapplySub (c : Chip) (e : Nat × (Nat × Nat)) : Chip :=
  let (d, tg, sp) := e
  let l := c.fld (R.RES_PCH d tg) F.RES_PCH_LOGICAL
  let st := c.fld (R.RES_PCH d sp) F.RES_PCH_STATE
  if l = 0x3F then c
  else
    let w := fat F.RES_PCH_STATE (if st = 6 then 5 else 0) + fat F.RES_PCH_LOGICAL l
    (c.setReg (R.RES_PCH d tg) (wNat (fat F.RES_PCH_STATE 4 + fat F.RES_PCH_LOGICAL 0x3F))).setReg (R.RES_PCH d sp) (wNat w)

/-- R189: re-apply the recorded pages of a domain, in the slots from 0 on. -/
def Chip.reapplyPages (c : Chip) (d : Nat) : Chip :=
  let l := (c.flashPages d).zipIdx.map fun e => (e.2, (e.1, false))
  c.setDom d { c.dom d with retire := l }

/-- Stage 0x8. -/
def Chip.records (c : Chip) : Chip :=
  if !c.inStage 8 then c
  else ((List.range 4).foldl Chip.reapplyPages (c.flash.subs.foldl Chip.reapplySub c)).toStage 9

/-! ## Executive and readiness -/

/-- Stage 0x9: a die's executive area is zeroed, the executive image of the running set copied, its measurement stored in the secure
region. -/
def loadExec (c : Chip) (src : Memory) (d : Nat) (m : Memory) : Memory :=
  let b := setBase (c.fld R.HUB_BOOT_STAT F.HUB_BOOT_STAT_IMAGE - 1)
  let l := imageLens src b
  let base := 0x400000000000 + d * 0x10000000
  let m1 := memFill (fun _ => 0) (base + 0x05E00000) (0x05E00000 / 8) 0x20000 m
  let m2 := copyFlash src (b + 0x100 + l.1) l.2 (base + 0x05EC0000) (0x05EC0000 / 8) m1
  let off := 0x05F00000 + Config.measureAt % 0x1FFFB * 8
  let h := bytesBE 48 (sha384 (flashBytes src (b + 0x100 + l.1) l.2))
  memFill (fun i => natLE ((h.drop (8 * i)).take 8)) (base + off) (off / 8) 6 m2

/-- Whole milliseconds since the sequence began. -/
def Chip.bootMs (c : Chip) : Nat := (c.now - c.resetAt) / 1000000

/-- EXEC_LOAD. -/
def execLoad (c : Chip) (m : Memory) : Chip × Memory :=
  if !c.inStage 9 then (c, m)
  else ((c.toStage 0xA).setFld R.HUB_BOOT_STAT F.HUB_BOOT_STAT_READY_MS c.bootMs,
        (List.range 4).foldl (fun r d => loadExec c m d r) m)

/-- R431: HOST_READY: both chains accept, the stacks go to self-refresh, EV000 is the first event of each queue. -/
def Chip.hostReady (c : Chip) : Chip :=
  if !c.inStage 0xA || c.flag R.HUB_BOOT_STAT F.HUB_BOOT_STAT_READY then c
  else
    let c1 := (c.setFld R.HUB_BOOT_STAT F.HUB_BOOT_STAT_READY 1).setFld R.HUB_BOOT_STAT F.HUB_BOOT_STAT_READY_MS c.bootMs
    let c2 := { c1 with mbxA := { c1.mbxA with accept := true }, mbxB := { c1.mbxB with accept := true } }
    let c3 := (List.range 8).foldl (fun c s => c.setFld (R.MEM_STAT s) F.MEM_STAT_PSTATE 1) c2
    (c3.sync).postLine 0

/-! ## Meanings -/

/-- POWER_ON (R370). -/
def execPowerOn (feed : Fin 2) (s : State) : Out :=
  let r := powerOn s.chip s.mem feed.val
  s.goBoth r.1 r.2

/-- RESET_N_ASSERT (R370, R504): a low of `lowNs` nanoseconds. -/
def execResetNAssert (lowNs : Nat) (taken : Bool) (s : State) : Out :=
  if s.chip.powered && resetTaken lowNs taken then
    let r := resetModule s.chip s.mem
    s.goBoth r.1 r.2
  else .next s

/-- PWR_GOOD_CHANGE (R428). -/
def execPwrGoodChange (level : Bool) (s : State) : Out :=
  let r := pwrGoodChange s.chip s.mem level
  s.goBoth r.1 r.2

/-- ROM_SELFTEST (R428, R429). -/
def execRomSelftest (ok0 ok1 : Bool) (s : State) : Out := s.goChip (s.chip.romSelftest s.mem (ok0 && ok1))

/-- HUB_INIT (R428). -/
def execHubInit (s : State) : Out :=
  let r := hubInit s.chip s.mem
  s.goBoth r.1 r.2

/-- IMAGE_A (R435). -/
def execImageA (readOk : Bool) (s : State) : Out :=
  let r := bootImage s.chip s.mem 0 readOk
  s.goBoth r.1 r.2

/-- IMAGE_B (R436). -/
def execImageB (readOk : Bool) (s : State) : Out :=
  let r := bootImage s.chip s.mem 1 readOk
  s.goBoth r.1 r.2

/-- TERIND_START (R428). -/
def execTerindStart (s : State) : Out := s.goChip s.chip.terindStart

/-- DRAM_TRAIN (R429). -/
def execDramTrain (fails : List (Fin 4 × Fin 64)) (s : State) : Out :=
  s.goChip (if s.chip.inStage 6 then (s.chip.trainAll s.mem (fails.map fun e => (e.1.val, e.2.val))).toStage 7 else s.chip)

/-- SPARE_TEST (R171). -/
def execSpareTest (fails : List (Fin 4 × Fin 64)) (s : State) : Out :=
  s.goChip (if s.chip.inStage 7 then (s.chip.testSpares (fails.map fun e => (e.1.val, e.2.val))).toStage 8 else s.chip)

/-- RECORDS (R182, R189). -/
def execRecords (s : State) : Out := s.goChip s.chip.records

/-- EXEC_LOAD (R428). -/
def execExecLoad (s : State) : Out :=
  let r := execLoad s.chip s.mem
  s.goBoth r.1 r.2

/-- HOST_READY (R431). -/
def execHostReady (s : State) : Out := s.goChip s.chip.hostReady

/-- Is a time due? -/
def dueAt (t : Option Nat) (now : Nat) : Bool := match t with | some t => decide (t ≤ now) | none => false

/-- MODULE_RESET (R418, R450): the reset that CMD_RESET or a life-cycle transition has set for this time. -/
def execModuleReset (s : State) : Out :=
  let c := s.chip
  if c.powered && (dueAt c.mgmt.resetAtNs c.now || dueAt c.sec.lcResetAt c.now) then
    let r := resetModule c s.mem
    s.goBoth r.1 r.2
  else .next s

/-- CMD_RESET (R418): the reset follows 1 ms after the response. -/
def execCmdReset (c : Cmd) (s : State) : Out :=
  s.goChip (s.chip.serve 0x7F c fun x cmd =>
    { x.respond cmd St.ok [] with mgmt := { (x.respond cmd St.ok []).mgmt with resetAtNs := some (x.now + 1000000) } })

end Sys2Proof.Machine
end

