-- ==== Sys2Proof/Machine/Power.lean ====
section
/-! DEFINITION. Machine/Power.lean: power states (R468-R472), feeds and Off (R465, R466), the clocks of the cluster islands and the loops
that move them (R473-R477). -/

namespace Sys2Proof.Machine

/-! ## Power states -/

/-- R469: does a transition, resync or long command run, or is a write still arriving? -/
def Chip.powerBusy (c : Chip) : Bool :=
  !c.mgmt.trans.isEmpty || !c.mgmt.long.isEmpty || ((List.range 48).any fun n => (c.clu n).resync.isSome)
    || (List.range 4).any fun p => !(c.writesFlowing p).isEmpty

/-- CMD_POWER_STATE after steps 1 to 6 (R469, R470): the present state is answered at once; sessions close at the acceptance of P2 or P3
(R461). A request while another transition runs is answered ST_BUSY. -/
def Chip.powerState (c : Chip) (cmd : Cmd) : Chip :=
  let t := cmd.p 0 % 4
  if c.flag R.PWR_STAT F.PWR_STAT_BUSY then c.respond cmd St.busy []
  else if t = c.pState then c.respond cmd St.ok []
  else if 2 ≤ t ∧ c.powerBusy = true then c.respond cmd St.busy []
  else
    let c1 := if 2 ≤ t then c.closeSessions 1 else c
    let c2 := (c1.setFld R.PWR_STAT F.PWR_STAT_TARGET t).setFld R.PWR_STAT F.PWR_STAT_BUSY 1
    { c2 with mgmt := { c2.mgmt with pwrCmd := some cmd } }

/-- Is a die in use: assigned to a partition and not fenced? -/
def Chip.dieInUse (c : Chip) (d : Nat) : Bool := (c.partOf d).isSome && !c.dieFenced d

/-- Table 18.3: enter P2 or P3: the engines pause, the stacks go to self-refresh, the islands are gated; in P3 the stacks lose power. -/
def Chip.enterHold (c : Chip) (st : Nat) : Chip :=
  let c1 := (List.range 48).foldl Chip.gate ((List.range 4).foldl Chip.pauseHog c)
  (List.range 8).foldl (fun c s =>
    let p := c.fld (R.MEM_STAT s) F.MEM_STAT_PSTATE
    c.setFld (R.MEM_STAT s) F.MEM_STAT_PSTATE (if st = 3 then 2 else if p = 0 then 1 else p)) c1

/-- Table 18.3: leave P2 toward P0 or P1: the islands of dies in use run, their stacks leave self-refresh, Hedgehog goes on. In HALTED the
clusters stay stopped (R369). -/
def Chip.leaveHold (c : Chip) : Chip :=
  if c.faults.halted then c else (List.range 4).foldl (fun c d => if c.dieInUse d then c.assignDie d else c) c

/-- Table 18.3, R471: leave P3: stacks powered, PHYs trained, spares tested, DRAM_EN cleared; the stacks come back in self-refresh. `fails` are
the channels that fail training, `spares` those whose spare self-test fails. -/
def Chip.leaveStandby (c : Chip) (m : Memory) (fails spares : List (Nat × Nat)) : Chip :=
  let c1 := (List.range 4).foldl (fun c d =>
    (c.setFld (R.HOG_CTRL d) F.HOG_CTRL_DRAM_EN 0).setDom d { c.dom d with written := false }) c
  let c2 := (c1.trainAll m fails).testSpares spares
  (List.range 8).foldl (fun c s => c.setFld (R.MEM_STAT s) F.MEM_STAT_PSTATE 1) c2

/-- R471: the stacks have lost their contents. -/
def forgetDram (m : Memory) : Memory := memForget m fun k => decide (placeOf k < 0x400000000000)

/-- R470: the last step of a power transition. -/
def powerDone (c : Chip) (m : Memory) (fails spares : List (Nat × Nat)) : Chip × Memory :=
  if !c.flag R.PWR_STAT F.PWR_STAT_BUSY then (c, m)
  else
    let b := c.pState
    let t := c.fld R.PWR_STAT F.PWR_STAT_TARGET
    let c1 := if b = 3 then c.leaveStandby m fails spares else c
    let c2 := if 2 ≤ t then c1.enterHold t
      else
        let c := (List.range 48).foldl (fun c n => c.setPolicy (policyMhz t) n) c1
        if 2 ≤ b then c.leaveHold else c
    let c3 := (((c2.setIslands t).setFld R.PWR_STAT F.PWR_STAT_STATE t).setFld R.PWR_STAT F.PWR_STAT_BUSY 0).raise 258 (b * 4 + t)
    let m1 := if t = 3 then forgetDram m else m
    match c3.mgmt.pwrCmd with
    | some cmd => (({ c3 with mgmt := { c3.mgmt with pwrCmd := none } } : Chip).respond cmd St.ok [], m1)
    | none => (c3, m1)

/-! ## Feeds (R465, R466) -/

/-- Is a feed in range? -/
def Chip.feedOk (c : Chip) (feed : Nat) : Bool :=
  c.flag R.PWR_STAT (if feed = 0 then F.PWR_STAT_FEED1_OK else F.PWR_STAT_FEED2_OK)

/-- R466: a feed leaves its range, which is source 0x60, or returns; each change raises its event. -/
def Chip.feedChange (c : Chip) (m : Memory) (feed : Nat) (ok : Bool) (volts : Nat) : Chip :=
  let c1 := c.setFeed feed ok volts
  if !c.powered then c
  else if ok == c.feedOk feed then c1
  else if ok then c1.raise (247 + feed)
  else (c1.detect m ⟨0x60, 88, 0xF10FFFFF + feed * 0x100000, 3, 0, [], 0, 0, false, false⟩).raise (247 + feed)

/-- R466, R505: the module is in Off. -/
def Chip.off (c : Chip) : Chip :=
  { now := c.now, resetAt := c.resetAt, powered := false, freeCtr := c.freeCtr, flash := c.flash, fuses := c.fuses,
    pins := { c.pins with started := false, safeA := false, safeB := false, driven := none } }

/-! ## Clocks (R473-R477) -/

/-- The junction of a die. -/
def Chip.junction (c : Chip) (d : Nat) : Int := s8 (c.fld (R.PWR_DIE d) F.PWR_DIE_TJ)

/-- Is thermal reduction of a die acting? -/
def Chip.reducing (c : Chip) (d : Nat) : Bool := c.fld (R.PWR_DIE d) F.PWR_DIE_THERM == 1

/-- Is the input power limit acting? -/
def Chip.limiting (c : Chip) : Bool := c.flag R.PWR_STAT F.PWR_STAT_PLIMIT

/-- Input power in watts. -/
def Chip.inputW (c : Chip) : Nat := c.fld R.PWR_STAT F.PWR_STAT_INPUT_W

/-- Does the island of a cluster run? -/
def Chip.runs (c : Chip) (n : Nat) : Bool := !c.flag (R.CLK_CLUSTER n) F.CLK_CLUSTER_GATED

/-- Table 18.4: does a protective loop ask for a step down on an island of die d? -/
def Chip.asksDown (c : Chip) (d : Nat) : Bool :=
  (c.reducing d && decide (105 ≤ c.junction d)) || (c.limiting && decide (700 ≤ c.inputW))

/-- R477: has every protective condition on an island of die d cleared, so that it may recover? -/
def Chip.recovers (c : Chip) (d : Nat) : Bool :=
  (!c.reducing d || decide (c.junction d < 100)) && (!c.limiting || decide (c.inputW < 700))

/-- The slowest island of a die, in 100 MHz. -/
def Chip.slowest (c : Chip) (d : Nat) : Nat :=
  ((clustersOfDie d).map fun n => c.fld (R.CLK_CLUSTER n) F.CLK_CLUSTER_CUR_MHZ / 100).foldl min 18

/-- Is an island among the listed ones held below its policy clock? -/
def Chip.heldAny (c : Chip) (l : List Nat) : Bool := l.any fun n => c.flag (R.CLK_CLUSTER n) F.CLK_CLUSTER_PROTECT

/-- Thermal reduction of a die ends once the junction is below 100 °C and no island of the die is held; its event is raised (R475). -/
def Chip.settleDie (c : Chip) (d : Nat) : Chip :=
  if c.reducing d && decide (c.junction d < 100) && !c.heldAny (clustersOfDie d) then
    (c.setFld (R.PWR_DIE d) F.PWR_DIE_THERM 0).raise (250 + d) (c.slowest d * 2 ^ 8)
  else c

/-- The input power limit ends once the power is below 700 W and no island is held; its event is raised. -/
def Chip.settleLimit (c : Chip) : Chip :=
  if c.limiting && decide (c.inputW < 700) && !c.heldAny (List.range 48) then
    (c.setFld R.PWR_STAT F.PWR_STAT_PLIMIT 0).raise 249
  else c

/-- Die thermal stop: every island of the die is stopped; each cluster records source 0x48. -/
def Chip.thermalStop (c : Chip) (m : Memory) (d : Nat) : Chip :=
  let c1 := c.setFld (R.PWR_DIE d) F.PWR_DIE_THERM 2
  let c2 := ((clustersOfDie d).filter fun n => !c.cluFenced n).foldl (fun c n => c.detect m (cluDet 0x48 n 0 false false)) c1
  ((clustersOfDie d).foldl Chip.gate c2).raise (254 + d)

/-- DIE_TEMP_READ: the readings, and what they start. -/
def Chip.dieTemp (c : Chip) (m : Memory) (d : Nat) (t : Int) (watts : Nat) : Chip :=
  let a := R.PWR_DIE d
  let c1 := ((c.setFld a F.PWR_DIE_TJ_MAX (u8 (max (s8 (c.fld a F.PWR_DIE_TJ_MAX)) t))).setFld a F.PWR_DIE_TJ (u8 t)).setFld a
    F.PWR_DIE_DIE_W watts
  if c.fld a F.PWR_DIE_THERM = 2 then c1
  else if 115 ≤ t then c1.thermalStop m d
  else if 105 ≤ t ∧ c.reducing d = false then
    (c1.setFld a F.PWR_DIE_THERM 1).raise (250 + d) (2 ^ 16 + c1.slowest d * 2 ^ 8)
  else (c1.settleDie d).settleLimit

/-- R476: a protective step on a pinned island: TIMING_VOID of its partition, and source 0x62 once per partition until reset. -/
def Chip.pinnedStep (c : Chip) (m : Memory) (n : Nat) : Chip :=
  match c.partOf (n / 12) with
  | none => c
  | some p =>
    let c1 := if c.faults.clkVoid.contains p then c
      else ({ c with faults := { c.faults with clkVoid := c.faults.clkVoid ++ [p] } } : Chip).detect m
        ⟨0x62, 82, 0xE6FFFFFF, 4, 0, [], p, 0, false, false⟩
    c1.timingVoid p

/-- A protective step down: 100 MHz, to no lower than 400 MHz. -/
def Chip.stepDown (c : Chip) (m : Memory) (n : Nat) : Chip :=
  let a := R.CLK_CLUSTER n
  let cur := c.fld a F.CLK_CLUSTER_CUR_MHZ
  let new := max 400 (cur - 100)
  if new = cur then c
  else
    let c1 := (c.setClock n new).setFld a F.CLK_CLUSTER_PROTECT (b2n (decide (new < c.fld a F.CLK_CLUSTER_POLICY_MHZ)))
    if c1.flag a F.CLK_CLUSTER_PINNED then c1.pinnedStep m n else c1

/-- A recovery step up: 100 MHz, to no more than the policy clock. -/
def Chip.stepUp (c : Chip) (n : Nat) : Chip :=
  let a := R.CLK_CLUSTER n
  let pol := c.fld a F.CLK_CLUSTER_POLICY_MHZ
  let new := min pol (c.fld a F.CLK_CLUSTER_CUR_MHZ + 100)
  (((c.setClock n new).setFld a F.CLK_CLUSTER_PROTECT (b2n (decide (new < pol)))).settleDie (n / 12)).settleLimit

/-- PROTECTIVE_CLOCK_STEP: only a running island steps, down while a loop asks for it, up once all have cleared. -/
def Chip.protectStep (c : Chip) (m : Memory) (n : Nat) (down : Bool) : Chip :=
  let d := n / 12
  if !c.runs n then c
  else if down then (if c.asksDown d then c.stepDown m n else c)
  else if c.flag (R.CLK_CLUSTER n) F.CLK_CLUSTER_PROTECT && c.recovers d then c.stepUp n else c

/-- Table 18.4: the conditions of boost. -/
def Chip.boostOk (c : Chip) (n : Nat) : Bool :=
  let d := n / 12
  c.pState == 0 && (c.dieMode d == 3 || c.dieMode d == 4) && !c.flag (R.CLK_CLUSTER n) F.CLK_CLUSTER_PINNED
    && (match c.partOf d with | some p => !c.flag (R.PAR_CTRL p) F.PAR_CTRL_FIXLAT | none => false)
    && decide (c.junction d < 85) && decide (c.inputW < 650) && !c.flag (R.CLK_CLUSTER n) F.CLK_CLUSTER_PROTECT

/-- BOOST_STEP: up by 100 MHz to no more than 1,800 MHz while every condition holds, down by 100 MHz once one fails. -/
def Chip.boostStep (c : Chip) (n : Nat) (up : Bool) : Chip :=
  let a := R.CLK_CLUSTER n
  let cur := c.fld a F.CLK_CLUSTER_CUR_MHZ
  if !c.runs n then c
  else if up then (if c.boostOk n then c.setClock n (min 1800 (cur + 100)) else c)
  else if c.flag a F.CLK_CLUSTER_BOOST && !c.boostOk n then c.setClock n (max (c.fld a F.CLK_CLUSTER_POLICY_MHZ) (cur - 100))
  else c

/-- INPUT_POWER_LIMIT: the input power, and the limit that starts above 750 W. -/
def Chip.inputPower (c : Chip) (watts : Nat) : Chip :=
  let c1 := c.setFld R.PWR_STAT F.PWR_STAT_INPUT_W watts
  if 750 < watts ∧ c.limiting = false then (c1.setFld R.PWR_STAT F.PWR_STAT_PLIMIT 1).raise 249 else c1.settleLimit

/-! ## Meanings -/

/-- CMD_POWER_STATE (R469, R470). -/
def execCmdPowerState (c : Cmd) (s : State) : Out := s.goChip (s.chip.serve 0x60 c Chip.powerState)

/-- POWER_TRANSITION_DONE (R470): `fails` are the channels that fail training on leaving P3, `spares` those that fail the spare self-test. -/
def execPowerTransitionDone (fails spares : List (Fin 4 × Fin 64)) (s : State) : Out :=
  let n := fun (l : List (Fin 4 × Fin 64)) => l.map fun e => (e.1.val, e.2.val)
  let r := powerDone s.chip s.mem (n fails) (n spares)
  s.goBoth r.1 r.2

/-- FEED_FAULT (R466). -/
def execFeedFault (feed : Fin 2) (ok : Bool) (volts : Nat) (s : State) : Out :=
  s.goChip (s.chip.feedChange s.mem feed.val ok volts)

/-- POWER_LOSS (R466): the hold-up has ended; only flash and fuses keep what they hold. -/
def execPowerLoss (s : State) : Out := s.goBoth s.chip.off (memForget s.mem fun k => !survivesOff k)

/-- DIE_TEMP_READ (R475). -/
def execDieTempRead (d : Fin 4) (temp : Int) (watts : Nat) (s : State) : Out := s.goChip (s.chip.dieTemp s.mem d.val temp watts)

/-- PROTECTIVE_CLOCK_STEP (R475-R477). -/
def execProtectiveClockStep (cl : Fin 48) (down : Bool) (s : State) : Out := s.goChip (s.chip.protectStep s.mem cl.val down)

/-- BOOST_STEP (R475). -/
def execBoostStep (cl : Fin 48) (up : Bool) (s : State) : Out := s.goChip (s.chip.boostStep cl.val up)

/-- INPUT_POWER_LIMIT (R475). -/
def execInputPowerLimit (watts : Nat) (s : State) : Out := s.goChip (s.chip.inputPower watts)

end Sys2Proof.Machine
end

