-- ==== Sys2Proof/Machine/Service.lean ====
section
/-! DEFINITION. Machine/Service.lean: the heartbeat (R43, R507), the sensors of the assembly (R493) and the SMBus service port (R510-R512). -/

namespace Sys2Proof.Machine

/-! ## Heartbeat -/

/-- The loss of HB_IN: source 0x71. -/
def heartbeatDet : Detection := ⟨0x71, 90, 0xFFFFFFFF, 7, 0, [], 0, 0, false, false⟩

/-- R507: a beat less than 9.5 ms after the last one is a loss, one from 10 ms on is not; between them the oscillator decides. -/
def Chip.tooEarly (c : Chip) : Bool :=
  let dt := c.now - c.pins.hbAt
  decide (dt < 9500000) || (decide (dt < 10000000) && Config.freeBool c.freeCtr)

/-- HB_IN_BEAT: a change of the filtered level. A beat after an interval that had reached 105 ms does not undo the loss. -/
def Chip.beat (c : Chip) (m : Memory) (level : Bool) : Chip :=
  if level == c.pins.hbIn then c
  else
    let c1 := { c.fresh with pins := { c.pins with hbIn := level, hbAt := c.now } }
    if c.powered && c.faults.hbArmed && (c.tooEarly || decide (105000000 ≤ c.now - c.pins.hbAt))
    then c1.detect m heartbeatDet else c1

/-- HEARTBEAT_LOSS: an armed monitor declares the loss after more than 100 ms without a beat, by 105 ms at the latest. -/
def Chip.beatMissing (c : Chip) (m : Memory) : Chip :=
  if c.powered && c.faults.hbArmed && !c.faults.halted && decide (100000000 < c.now - c.pins.hbAt)
  then c.detect m heartbeatDet else c

/-! ## Sensors -/

/-- The lines that sensor thresholds drive (R493): EV271 to EV275 and EV277. -/
def sensorLine (k : Nat) : Bool := (decide (271 ≤ k) && decide (k ≤ 275)) || k == 277

/-- SENSOR_THRESHOLD_CROSSING: the sensor's report, as DETAIL of Table 20.1 carries it, and its event. -/
def Chip.sensorCross (c : Chip) (k val : Nat) : Chip :=
  if !sensorLine k || !c.powered then c
  else ({ c with pins := { c.pins with sensors := mset c.pins.sensors k val } } : Chip).raise k (val % 512)

/-! ## Service port -/

/-- R510: is SMB_ALERT_N asserted: HALTED, a record of class FTL, or an image or life-cycle operation that has completed? -/
def Chip.alert (c : Chip) : Bool :=
  c.powered && (c.faults.halted || c.svc.opDone
    || (List.range 91).any fun i => c.flag (R.FLT_STAT i) F.FLT_STAT_VALID && c.fld (R.FLT_STAT i) F.FLT_STAT_CLASS == 3)

/-- R511: does the present server, the boot ROM or Terind, offer a command? While Badger restarts nothing is served (R371). -/
def Chip.offers (c : Chip) (rom : Bool) : Bool :=
  c.powered && c.pins.started && !c.badger.restarting
    && (rom || (decide (5 ≤ c.stage) && decide (c.stage ≤ 0xA)))

/-- Set what the last transaction read; none stands for NACK. -/
def Chip.reply (c : Chip) (r : Option (List Word)) : Chip := { c with svc := { c.svc with reply := r } }

/-- R510, R511: one transaction: a bad packet error code discards it whole and counts; a command that is not offered is NACKed. -/
def Chip.transaction (c : Chip) (pec rom : Bool) (f : Chip → Chip) : Chip :=
  if !c.powered then c
  else if !pec then (c.addFld R.HUB_SVC_STAT F.HUB_SVC_STAT_PEC_ERR 1).reply none
  else if !c.offers rom then c.reply none
  else f c

/-- STATUS. -/
def Chip.svcStatus (c : Chip) : Chip :=
  let w := b2n c.faults.hbArmed * 2 ^ 5 + c.fld R.HUB_BOOT_STAT F.HUB_BOOT_STAT_READY * 2 ^ 4 + b2n c.faults.halted * 2 ^ 3 + c.pState
  c.reply (some [c.readReg R.HUB_BOOT_STAT, c.readReg R.PWR_STAT, wNat w, wNat (b2n c.pins.safeA * 2 + b2n c.pins.safeB)])

/-- SELECT: an inst above 90 is refused. -/
def Chip.svcSelect (c : Chip) (w : Word) : Chip :=
  let i := w.toNat % 256
  if 90 < i then c.reply none
  else
    let c1 := ({ c with svc := { c.svc with sel := i } } : Chip).reply (some [])
    if bit w.toNat 8 then c1.recheckView i else c1

/-- FAULT: the record of the selected inst, FLT_STAT, FLT_INFO, FLT_FENCE and GEN from the management view. -/
def Chip.svcFault (c : Chip) : Chip :=
  let i := c.svc.sel
  let e := c.viewEntry i
  c.reply (some [e.1, e.2.1, c.readReg (R.FLT_TIME i), c.readReg (R.FLT_COUNT i), e.2.2.1, wNat e.2.2.2])

/-- Erase an image set: nothing of it is written any more. -/
def eraseSet (m : Memory) (k : Nat) : Memory :=
  memForget m fun a => decide (0x800000000000 + setBase k ≤ a) && decide (a < 0x800000000000 + setBase (k + 1))

/-- IMG_OPEN (R512): refused while the boot ROM reads image sets and while another set is open. -/
def imgOpen (c : Chip) (m : Memory) (w : Word) : Chip × Memory :=
  let k := w.toNat % 256
  if 1 < k ∨ c.stage = 3 ∨ c.stage = 4 ∨ (c.svc.imgState = 1 ∧ c.svc.imgSet ≠ k) then (c.reply none, m)
  else
    let v := { c.svc with imgSet := k, imgLen := 0, imgCount := 0, imgState := 1, imgCode := 0, reply := some [] }
    ({ c with svc := v }, eraseSet m k)

/-- IMG_DATA (R512): written only at the expected offset; a transfer that would pass the end of the set leaves it unchanged. -/
def imgData (c : Chip) (m : Memory) (off : Nat) (bytes : List Byte) : Chip × Memory :=
  let v := c.svc
  if v.imgState = 1 ∧ off = v.imgCount ∧ bytes.length = 240 ∧ off + 240 ≤ 0x1000000 then
    ({ c with svc := { v with imgCount := off + 240, reply := some [] } },
     memPutBytes m (0x800000000000 + setBase v.imgSet + off) bytes)
  else (c.reply (some []), m)

/-- IMG_CLOSE: the checks of the set begin. -/
def Chip.imgClose (c : Chip) (len : Nat) : Chip :=
  if c.svc.imgState = 1 then { c with svc := { c.svc with imgLen := len, imgState := 2, reply := some [] } } else c.reply none

/-- IMAGE_CHECK_DONE: checks 2 to 7 of Table 16.4 on the set as it stands in flash. -/
def Chip.imgChecked (c : Chip) (m : Memory) (readOk : Bool) : Chip :=
  if c.svc.imgState ≠ 2 then c
  else
    let code := c.imageCheck m (setBase c.svc.imgSet) readOk
    { c with svc := { c.svc with imgState := if code = 0 then 3 else 4, imgCode := code, opDone := true } }

/-- IMG_STAT. -/
def Chip.imgStat (c : Chip) : Chip :=
  c.reply (some [wNat (c.svc.imgState * 2 ^ 56 + c.svc.imgCode * 2 ^ 48 + c.svc.imgCount)])

/-- LC_REQUEST: a part of a request; a part of length 0 closes it. A part that comes while a closed request waits is refused. -/
def Chip.lcPart (c : Chip) (bytes : List Byte) : Chip :=
  if c.sec.lcClosed ∨ 240 < bytes.length then c.reply none
  else
    let x := { c.sec with lcParts := c.sec.lcParts ++ bytes, lcClosed := bytes.isEmpty, lcResult := 0, lcNumber := 0 }
    ({ c with sec := x } : Chip).reply (some [])

/-- LC_RESULT. -/
def Chip.lcAnswer (c : Chip) : Chip := c.reply (some [wNat (c.sec.lcResult * 2 ^ 56 + c.sec.lcNumber)])

/-- R510: a read of the Alert Response Address returns the address and releases the line; a lasting condition asserts it again. -/
def Chip.alertRead (c : Chip) : Chip :=
  if c.alert then { c with svc := { c.svc with opDone := false, reply := some [wNat (0x58 + c.pins.slotId)] } } else c.reply none

/-- A transaction that reaches the flash. -/
def flashTransaction (s : State) (pec : Bool) (f : Chip → Memory → Chip × Memory) : Out :=
  let c := s.chip
  if c.powered && pec && c.offers true then
    let r := f c s.mem
    s.goBoth r.1 r.2
  else s.goChip (c.transaction pec true id)

/-! ## Meanings -/

/-- HB_IN_BEAT (R507). -/
def execHbInBeat (level : Bool) (s : State) : Out := s.goChip (s.chip.beat s.mem level)

/-- HEARTBEAT_LOSS (R507). -/
def execHeartbeatLoss (s : State) : Out := s.goChip (s.chip.beatMissing s.mem)

/-- SENSOR_THRESHOLD_CROSSING (R493). -/
def execSensorThresholdCrossing (k : Fin 288) (val : Nat) (s : State) : Out := s.goChip (s.chip.sensorCross k.val val)

/-- SERVICE_STATUS (R511). -/
def execServiceStatus (pec : Bool) (s : State) : Out := s.goChip (s.chip.transaction pec true Chip.svcStatus)

/-- SERVICE_SELECT (R511). -/
def execServiceSelect (pec : Bool) (w : Word) (s : State) : Out :=
  s.goChip (s.chip.transaction pec false fun c => c.svcSelect w)

/-- SERVICE_FAULT (R511). -/
def execServiceFault (pec : Bool) (s : State) : Out := s.goChip (s.chip.transaction pec false Chip.svcFault)

/-- SERVICE_IDENTIFY (R511): the words of CMD_IDENTIFY as chain A is answered. -/
def execServiceIdentify (pec : Bool) (s : State) : Out :=
  s.goChip (s.chip.transaction pec true fun c => c.reply (some (c.identify 0)))

/-- IMG_OPEN (R512). -/
def execImgOpen (pec : Bool) (w : Word) (s : State) : Out := flashTransaction s pec fun c m => imgOpen c m w

/-- IMG_DATA (R512). -/
def execImgData (pec : Bool) (off : Nat) (bytes : List Byte) (s : State) : Out :=
  flashTransaction s pec fun c m => imgData c m off bytes

/-- IMG_CLOSE (R511). -/
def execImgClose (pec : Bool) (len : Nat) (s : State) : Out :=
  s.goChip (s.chip.transaction pec true fun c => c.imgClose len)

/-- IMG_STAT (R511). -/
def execImgStat (pec : Bool) (s : State) : Out := s.goChip (s.chip.transaction pec true Chip.imgStat)

/-- LC_REQUEST (R449, R511). -/
def execLcRequest (pec : Bool) (bytes : List Byte) (s : State) : Out :=
  s.goChip (s.chip.transaction pec false fun c => c.lcPart bytes)

/-- LC_RESULT (R511). -/
def execLcResult (pec : Bool) (s : State) : Out := s.goChip (s.chip.transaction pec false Chip.lcAnswer)

/-- ALERT_RESPONSE_READ (R510). -/
def execAlertResponseRead (s : State) : Out := s.goChip s.chip.alertRead

/-- IMAGE_CHECK_DONE (R511). -/
def execImageCheckDone (readOk : Bool) (s : State) : Out := s.goChip (s.chip.imgChecked s.mem readOk)

end Sys2Proof.Machine
end

