-- ==== Sys2Proof/Machine/Dispatch.lean ====
section
/-! DEFINITION. Machine/Dispatch.lean: the arm of every command. -/

namespace Sys2Proof.Machine

open Sys2Proof

/-- The effect of a command on everything but the queue. -/
def exec (i : Instr) (s : State) : Host.Outcome State Fault Refusal :=
  match i with
  | .powerOn feed => Sys2Proof.Machine.execPowerOn feed s
  | .resetNAssert lowNs taken => Sys2Proof.Machine.execResetNAssert lowNs taken s
  | .pwrGoodChange level => Sys2Proof.Machine.execPwrGoodChange level s
  | .romSelftest ok0 ok1 => Sys2Proof.Machine.execRomSelftest ok0 ok1 s
  | .hubInit => Sys2Proof.Machine.execHubInit s
  | .imageA readOk => Sys2Proof.Machine.execImageA readOk s
  | .imageB readOk => Sys2Proof.Machine.execImageB readOk s
  | .terindStart => Sys2Proof.Machine.execTerindStart s
  | .dramTrain fails => Sys2Proof.Machine.execDramTrain fails s
  | .spareTest fails => Sys2Proof.Machine.execSpareTest fails s
  | .records => Sys2Proof.Machine.execRecords s
  | .execLoad => Sys2Proof.Machine.execExecLoad s
  | .hostReady => Sys2Proof.Machine.execHostReady s
  | .moduleReset => Sys2Proof.Machine.execModuleReset s
  | .cmdIdentify c => Sys2Proof.Machine.execCmdIdentify c s
  | .cmdStatus c => Sys2Proof.Machine.execCmdStatus c s
  | .cmdFaultRead c => Sys2Proof.Machine.execCmdFaultRead c s
  | .cmdFaultClear c same => Sys2Proof.Machine.execCmdFaultClear c same s
  | .cmdPartConfig c => Sys2Proof.Machine.execCmdPartConfig c s
  | .cmdPartStart c => Sys2Proof.Machine.execCmdPartStart c s
  | .cmdPartMode c => Sys2Proof.Machine.execCmdPartMode c s
  | .entrySelfTest p fails => Sys2Proof.Machine.execEntrySelfTest p fails s
  | .partTransitionDone p => Sys2Proof.Machine.execPartTransitionDone p s
  | .cmdTakeover c => Sys2Proof.Machine.execCmdTakeover c s
  | .cmdJobSubmit c => Sys2Proof.Machine.execCmdJobSubmit c s
  | .cmdJobAbort c => Sys2Proof.Machine.execCmdJobAbort c s
  | .cmdMemWrite c => Sys2Proof.Machine.execCmdMemWrite c s
  | .cmdMemRead c => Sys2Proof.Machine.execCmdMemRead c s
  | .cmdMemFill c => Sys2Proof.Machine.execCmdMemFill c s
  | .fillComplete p => Sys2Proof.Machine.execFillComplete p s
  | .cmdRetirePage c => Sys2Proof.Machine.execCmdRetirePage c s
  | .retirePendingClear d page => Sys2Proof.Machine.execRetirePendingClear d page s
  | .cmdPcSubstitute c => Sys2Proof.Machine.execCmdPcSubstitute c s
  | .resSubStart d w => Sys2Proof.Machine.execResSubStart d w s
  | .substCopyGranule d => Sys2Proof.Machine.execSubstCopyGranule d s
  | .substSwap d => Sys2Proof.Machine.execSubstSwap d s
  | .poisonFillDone d => Sys2Proof.Machine.execPoisonFillDone d s
  | .cmdMapRead c => Sys2Proof.Machine.execCmdMapRead c s
  | .bistCoreSelftest c fails => Sys2Proof.Machine.execBistCoreSelftest c fails s
  | .bistRawMacro c busy => Sys2Proof.Machine.execBistRawMacro c busy s
  | .bistRedundancyRun c => Sys2Proof.Machine.execBistRedundancyRun c s
  | .bistMemoryPattern c fails => Sys2Proof.Machine.execBistMemoryPattern c fails s
  | .cmdInject c => Sys2Proof.Machine.execCmdInject c s
  | .checkbitWindowOpen c => Sys2Proof.Machine.execCheckbitWindowOpen c s
  | .checkbitWindowClose c => Sys2Proof.Machine.execCheckbitWindowClose c s
  | .debugClose c => Sys2Proof.Machine.execDebugClose c s
  | .debugPassword c => Sys2Proof.Machine.execDebugPassword c s
  | .debugNonceRequest c => Sys2Proof.Machine.execDebugNonceRequest c s
  | .debugSignedResponse c => Sys2Proof.Machine.execDebugSignedResponse c s
  | .nonceExpiry p => Sys2Proof.Machine.execNonceExpiry p s
  | .lockoutEnd => Sys2Proof.Machine.execLockoutEnd s
  | .cmdPowerState c => Sys2Proof.Machine.execCmdPowerState c s
  | .powerTransitionDone fails spares => Sys2Proof.Machine.execPowerTransitionDone fails spares s
  | .cmdReset c => Sys2Proof.Machine.execCmdReset c s
  | .jobStart p => Sys2Proof.Machine.execJobStart p s
  | .jobComplete handle => Sys2Proof.Machine.execJobComplete handle s
  | .completionPost handle => Sys2Proof.Machine.execCompletionPost handle s
  | .discardResponse handle => Sys2Proof.Machine.execDiscardResponse handle s
  | .chainLoadCall cl => Sys2Proof.Machine.execChainLoadCall cl s
  | .jobBarrierCall cl => Sys2Proof.Machine.execJobBarrierCall cl s
  | .shortPair t x y => Sys2Proof.Machine.execShortPair t x y s
  | .add t d a b => Sys2Proof.Machine.execAdd t d a b s
  | .adc t d a b => Sys2Proof.Machine.execAdc t d a b s
  | .sub t d a b => Sys2Proof.Machine.execSub t d a b s
  | .sbc t d a b => Sys2Proof.Machine.execSbc t d a b s
  | .and t d a b => Sys2Proof.Machine.execAnd t d a b s
  | .or t d a b => Sys2Proof.Machine.execOr t d a b s
  | .xor t d a b => Sys2Proof.Machine.execXor t d a b s
  | .shl t d a b => Sys2Proof.Machine.execShl t d a b s
  | .shr t d a b => Sys2Proof.Machine.execShr t d a b s
  | .sar t d a b => Sys2Proof.Machine.execSar t d a b s
  | .neg t d a => Sys2Proof.Machine.execNeg t d a s
  | .negs t d a => Sys2Proof.Machine.execNegs t d a s
  | .mul t d a b => Sys2Proof.Machine.execMul t d a b s
  | .mulh t d a b => Sys2Proof.Machine.execMulh t d a b s
  | .mulhu t d a b => Sys2Proof.Machine.execMulhu t d a b s
  | .div t d a b => Sys2Proof.Machine.execDiv t d a b s
  | .divu t d a b => Sys2Proof.Machine.execDivu t d a b s
  | .rem t d a b => Sys2Proof.Machine.execRem t d a b s
  | .remu t d a b => Sys2Proof.Machine.execRemu t d a b s
  | .cmp t a b => Sys2Proof.Machine.execCmp t a b s
  | .tst t a b => Sys2Proof.Machine.execTst t a b s
  | .min t d a b => Sys2Proof.Machine.execMin t d a b s
  | .max t d a b => Sys2Proof.Machine.execMax t d a b s
  | .addi t d a imm => Sys2Proof.Machine.execAddi t d a imm s
  | .andi t d a imm => Sys2Proof.Machine.execAndi t d a imm s
  | .ori t d a imm => Sys2Proof.Machine.execOri t d a imm s
  | .xori t d a imm => Sys2Proof.Machine.execXori t d a imm s
  | .shli t d a n => Sys2Proof.Machine.execShli t d a n s
  | .shri t d a n => Sys2Proof.Machine.execShri t d a n s
  | .sari t d a n => Sys2Proof.Machine.execSari t d a n s
  | .cmpi t a imm => Sys2Proof.Machine.execCmpi t a imm s
  | .movi t d imm => Sys2Proof.Machine.execMovi t d imm s
  | .movk t d k imm => Sys2Proof.Machine.execMovk t d k imm s
  | .ldb t n a => Sys2Proof.Machine.execLdb t n a s
  | .mfb t d n => Sys2Proof.Machine.execMfb t d n s
  | .ld8 t d m => Sys2Proof.Machine.execLd8 t d m s
  | .ld8s t d m => Sys2Proof.Machine.execLd8s t d m s
  | .ld16 t d m => Sys2Proof.Machine.execLd16 t d m s
  | .ld16s t d m => Sys2Proof.Machine.execLd16s t d m s
  | .ld32 t d m => Sys2Proof.Machine.execLd32 t d m s
  | .ld32s t d m => Sys2Proof.Machine.execLd32s t d m s
  | .ld64 t d m => Sys2Proof.Machine.execLd64 t d m s
  | .st8 t d m => Sys2Proof.Machine.execSt8 t d m s
  | .st16 t d m => Sys2Proof.Machine.execSt16 t d m s
  | .st32 t d m => Sys2Proof.Machine.execSt32 t d m s
  | .st64 t d m => Sys2Proof.Machine.execSt64 t d m s
  | .ldu64 t d a imm => Sys2Proof.Machine.execLdu64 t d a imm s
  | .dinv t a imm => Sys2Proof.Machine.execDinv t a imm s
  | .dinva t => Sys2Proof.Machine.execDinva t s
  | .push t d => Sys2Proof.Machine.execPush t d s
  | .pop t d => Sys2Proof.Machine.execPop t d s
  | .bCc t cc disp => Sys2Proof.Machine.execBCc t cc disp s
  | .call t disp => Sys2Proof.Machine.execCall t disp s
  | .callr t a => Sys2Proof.Machine.execCallr t a s
  | .ret t => Sys2Proof.Machine.execRet t s
  | .jmpr t a => Sys2Proof.Machine.execJmpr t a s
  | .stm t a mask => Sys2Proof.Machine.execStm t a mask s
  | .ldm t a mask => Sys2Proof.Machine.execLdm t a mask s
  | .saveh t a h => Sys2Proof.Machine.execSaveh t a h s
  | .loadh t h => Sys2Proof.Machine.execLoadh t h s
  | .mfs t d sp => Sys2Proof.Machine.execMfs t d sp s
  | .mts t sp a => Sys2Proof.Machine.execMts t sp a s
  | .mtsRsp t a => Sys2Proof.Machine.execMtsRsp t a s
  | .ctxCreate t a => Sys2Proof.Machine.execCtxCreate t a s
  | .ctxDestroy t a => Sys2Proof.Machine.execCtxDestroy t a s
  | .svc t imm => Sys2Proof.Machine.execSvc t imm s
  | .rfe t => Sys2Proof.Machine.execRfe t s
  | .crit t imm => Sys2Proof.Machine.execCrit t imm s
  | .critEnd t => Sys2Proof.Machine.execCritEnd t s
  | .iflush t => Sys2Proof.Machine.execIflush t s
  | .vld t v a sz disp => Sys2Proof.Machine.execVld t v a sz disp s
  | .vst t v a sz disp => Sys2Proof.Machine.execVst t v a sz disp s
  | .valu t vd va vb sz f => Sys2Proof.Machine.execValu t vd va vb sz f s
  | .vins t v sz j a => Sys2Proof.Machine.execVins t v sz j a s
  | .vext t d v sz j => Sys2Proof.Machine.execVext t d v sz j s
  | .sIssue t d q => Sys2Proof.Machine.execSIssue t d q s
  | .sWait t d a => Sys2Proof.Machine.execSWait t d a s
  | .vbar t d => Sys2Proof.Machine.execVbar t d s
  | .sFence t => Sys2Proof.Machine.execSFence t s
  | .sFlags t d a => Sys2Proof.Machine.execSFlags t d a s
  | .illegalInstruction t w => Sys2Proof.Machine.execIllegalInstruction t w s
  | .interruptTake t => Sys2Proof.Machine.execInterruptTake t s
  | .critWindowExpiry t => Sys2Proof.Machine.execCritWindowExpiry t s
  | .storeResponse t lost => Sys2Proof.Machine.execStoreResponse t lost s
  | .doorbell t => Sys2Proof.Machine.execDoorbell t s
  | .contextSpillDone t => Sys2Proof.Machine.execContextSpillDone t s
  | .contextLoadDone t => Sys2Proof.Machine.execContextLoadDone t s
  | .owlDecision t upset rails => Sys2Proof.Machine.execOwlDecision t upset rails s
  | .requestCompare t reqs => Sys2Proof.Machine.execRequestCompare t reqs s
  | .denCopyDone cl => Sys2Proof.Machine.execDenCopyDone cl s
  | .rejoin cl => Sys2Proof.Machine.execRejoin cl s
  | .coreSelftestDone cl fails => Sys2Proof.Machine.execCoreSelftestDone cl fails s
  | .executiveRestart cl => Sys2Proof.Machine.execExecutiveRestart cl s
  | .streamStart cl slot => Sys2Proof.Machine.execStreamStart cl slot s
  | .blockTake cl slot block => Sys2Proof.Machine.execBlockTake cl slot block s
  | .tileWindowClose cl tile => Sys2Proof.Machine.execTileWindowClose cl tile s
  | .pairDecision cl pair upset rails => Sys2Proof.Machine.execPairDecision cl pair upset rails s
  | .streamRetire cl slot upset => Sys2Proof.Machine.execStreamRetire cl slot upset s
  | .streamFault cl slot => Sys2Proof.Machine.execStreamFault cl slot s
  | .aguSfltClear cl => Sys2Proof.Machine.execAguSfltClear cl s
  | .matrixPieceGrant bursts tgt => Sys2Proof.Machine.execMatrixPieceGrant bursts tgt s
  | .pieceResponse die port id => Sys2Proof.Machine.execPieceResponse die port id s
  | .linkCreditReturn die endpoint ch => Sys2Proof.Machine.execLinkCreditReturn die endpoint ch s
  | .hopReplay hop ok => Sys2Proof.Machine.execHopReplay hop ok s
  | .memCtrlRead d pch q master job => Sys2Proof.Machine.execMemCtrlRead d pch q master job s
  | .memCtrlWrite d g words master job => Sys2Proof.Machine.execMemCtrlWrite d g words master job s
  | .scratchAccess d off acc => Sys2Proof.Machine.execScratchAccess d off acc s
  | .dramRefresh st => Sys2Proof.Machine.execDramRefresh st s
  | .stackTempRead st temp => Sys2Proof.Machine.execStackTempRead st temp s
  | .scrubRead d newer again => Sys2Proof.Machine.execScrubRead d newer again s
  | .lapOverdue d => Sys2Proof.Machine.execLapOverdue d s
  | .rawMacroGo d w busy => Sys2Proof.Machine.execRawMacroGo d w busy s
  | .secureWipe cause => Sys2Proof.Machine.execSecureWipe cause s
  | .secureWipeDone => Sys2Proof.Machine.execSecureWipeDone s
  | .dmaStart ch w => Sys2Proof.Machine.execDmaStart ch w s
  | .dmaTransferDone ch => Sys2Proof.Machine.execDmaTransferDone ch s
  | .foxHoldClear cl w => Sys2Proof.Machine.execFoxHoldClear cl w s
  | .foxHoldSet cl w => Sys2Proof.Machine.execFoxHoldSet cl w s
  | .faultDetection ds => Sys2Proof.Machine.execFaultDetection ds s
  | .haltLogCopy => Sys2Proof.Machine.execHaltLogCopy s
  | .quarantineEnd b => Sys2Proof.Machine.execQuarantineEnd b s
  | .badgerRestart ok0 ok1 => Sys2Proof.Machine.execBadgerRestart ok0 ok1 s
  | .viewAudit => Sys2Proof.Machine.execViewAudit s
  | .eventRaise k par => Sys2Proof.Machine.execEventRaise k par s
  | .eventScan => Sys2Proof.Machine.execEventScan s
  | .evrSwset w => Sys2Proof.Machine.execEvrSwset w s
  | .mbxCmdDataWrite ch w => Sys2Proof.Machine.execMbxCmdDataWrite ch w s
  | .mbxResync ch w => Sys2Proof.Machine.execMbxResync ch w s
  | .mbxRspDataRead ch => Sys2Proof.Machine.execMbxRspDataRead ch s
  | .mbxRspBack ch w => Sys2Proof.Machine.execMbxRspBack ch w s
  | .mbxEvtDataRead ch => Sys2Proof.Machine.execMbxEvtDataRead ch s
  | .registerWrite who addr w => Sys2Proof.Machine.execRegisterWrite who addr w s
  | .frameReceive p f => Sys2Proof.Machine.execFrameReceive p f s
  | .link p f => Sys2Proof.Machine.execLink p f s
  | .linkFrameSend p => Sys2Proof.Machine.execLinkFrameSend p s
  | .retransmitTimeout p => Sys2Proof.Machine.execRetransmitTimeout p s
  | .frameTransmit p => Sys2Proof.Machine.execFrameTransmit p s
  | .alignmentBlock p => Sys2Proof.Machine.execAlignmentBlock p s
  | .frameRelay p f => Sys2Proof.Machine.execFrameRelay p f s
  | .rd ch f => Sys2Proof.Machine.execRd ch f s
  | .wr ch f => Sys2Proof.Machine.execWr ch f s
  | .rw ch f => Sys2Proof.Machine.execRw ch f s
  | .rr ch f => Sys2Proof.Machine.execRr ch f s
  | .sync ch f => Sys2Proof.Machine.execSync ch f s
  | .enum ch f => Sys2Proof.Machine.execEnum ch f s
  | .unassign ch f => Sys2Proof.Machine.execUnassign ch f s
  | .notifySend ch => Sys2Proof.Machine.execNotifySend ch s
  | .portTraining p t => Sys2Proof.Machine.execPortTraining p t s
  | .portRetrain p lock => Sys2Proof.Machine.execPortRetrain p lock s
  | .retryBufferDiscard p => Sys2Proof.Machine.execRetryBufferDiscard p s
  | .hbInBeat level => Sys2Proof.Machine.execHbInBeat level s
  | .heartbeatLoss => Sys2Proof.Machine.execHeartbeatLoss s
  | .feedFault feed ok volts => Sys2Proof.Machine.execFeedFault feed ok volts s
  | .powerLoss => Sys2Proof.Machine.execPowerLoss s
  | .dieTempRead d temp watts => Sys2Proof.Machine.execDieTempRead d temp watts s
  | .protectiveClockStep cl down => Sys2Proof.Machine.execProtectiveClockStep cl down s
  | .boostStep cl up => Sys2Proof.Machine.execBoostStep cl up s
  | .inputPowerLimit watts => Sys2Proof.Machine.execInputPowerLimit watts s
  | .lidFilterExpiry => Sys2Proof.Machine.execLidFilterExpiry s
  | .lcTransition => Sys2Proof.Machine.execLcTransition s
  | .minSvnRaise => Sys2Proof.Machine.execMinSvnRaise s
  | .debugHalt cl => Sys2Proof.Machine.execDebugHalt cl s
  | .debugStep cl => Sys2Proof.Machine.execDebugStep cl s
  | .debugResume cl => Sys2Proof.Machine.execDebugResume cl s
  | .debugHaltTimeout cl => Sys2Proof.Machine.execDebugHaltTimeout cl s
  | .extest drive => Sys2Proof.Machine.execExtest drive s
  | .serviceStatus pec => Sys2Proof.Machine.execServiceStatus pec s
  | .serviceSelect pec w => Sys2Proof.Machine.execServiceSelect pec w s
  | .serviceFault pec => Sys2Proof.Machine.execServiceFault pec s
  | .serviceIdentify pec => Sys2Proof.Machine.execServiceIdentify pec s
  | .imgOpen pec w => Sys2Proof.Machine.execImgOpen pec w s
  | .imgData pec off bytes => Sys2Proof.Machine.execImgData pec off bytes s
  | .imgClose pec len => Sys2Proof.Machine.execImgClose pec len s
  | .imgStat pec => Sys2Proof.Machine.execImgStat pec s
  | .lcRequest pec bytes => Sys2Proof.Machine.execLcRequest pec bytes s
  | .lcResult pec => Sys2Proof.Machine.execLcResult pec s
  | .alertResponseRead => Sys2Proof.Machine.execAlertResponseRead s
  | .busErrorFetch t resp => Sys2Proof.Machine.execBusErrorFetch t resp s
  | .tamperInputChange closed meshOpen meshShort => Sys2Proof.Machine.execTamperInputChange closed meshOpen meshShort s
  | .sensorThresholdCrossing k val => Sys2Proof.Machine.execSensorThresholdCrossing k val s
  | .lossOfTraining die endpoint ch how => Sys2Proof.Machine.execLossOfTraining die endpoint ch how s
  | .channelRetraining d pch persists => Sys2Proof.Machine.execChannelRetraining d pch persists s
  | .lnkCtrlDownEnWrite p en => Sys2Proof.Machine.execLnkCtrlDownEnWrite p en s
  | .imageCheckDone readOk => Sys2Proof.Machine.execImageCheckDone readOk s
  | .debugPortAccess p write addr w => Sys2Proof.Machine.execDebugPortAccess p write addr w s

end Sys2Proof.Machine
end

