-- ==== Sys2Proof/Machine/Step.lean ====
section
/-! DEFINITION. Machine/Step.lean: one step. The command at the front of the queue takes effect; on an empty queue time
moves on by a nanosecond. -/

namespace Sys2Proof.Machine

/-- The state after a nanosecond in which no operation and no event happens. DESIGN CHOICE: the manual's times are
multiples of the nanosecond at their finest statement, so the model counts time in nanoseconds. -/
def State.tick (s : State) : State := { s with chip := { s.chip with now := s.chip.now + 1 } }

/-- One step: the front command runs on the state with the queue's rest; an empty queue lets time pass. -/
def step (s : State) : Host.Outcome State Fault Refusal :=
  match s.pending with
  | [] => .next s.tick
  | c :: rest => exec c { s with pending := rest }

/-- The state with the command that a table word spells at the front of its queue. -/
def State.withFetchWord (s : State) (nbits w : Nat) : State :=
  match Sys2Proof.decodeTableWord nbits w with
  | some c => { s with pending := c :: s.pending }
  | none => s

end Sys2Proof.Machine
end

