-- ==== Sys2Proof/Safety.lean ====
section
/-! DEFINITION. Safety.lean: what counts as a safe run: a step that neither faults nor is refused. -/

namespace Sys2Proof

/-- The step answers a next state. -/
def stepSafe (s : Machine.State) : Prop := ∃ t, Machine.step s = .next t

end Sys2Proof
end

