-- ==== Sys2Proof/Certificates/Slice0/Obligations.lean ====
section
/-! DEFINITION. Certificates/Slice0/Obligations.lean: what the model is claimed to do, rule by rule, for the provers. The
first part names the shapes that several statements share. -/

namespace Sys2Proof.Claims

open Sys2Proof.Machine

/-- The command answers a next state, and that state meets `P`. -/
def answers (i : Instr) (s : State) (P : State → Prop) : Prop := ∃ u, exec i s = .next u ∧ P u

/-- The cores of a target take their next word now, no trap of a stream comes first (R150), and the fetch is an ordinary one (R293,
R331): the members ask for the same lines, no check of theirs finds an error, and no injection waits for a request. -/
def takes (s : State) (t : Tgt) : Prop :=
  s.chip.ready t = true ∧ s.chip.dueTrap t = none ∧ s.chip.quietFetch s.mem t = true

/-- The stored word at a key is read and written as it stands: no bypass window covers it (R346), and the raw-macro window does not write it
in this cycle (R224). -/
def plain (c : Chip) (key : Nat) (l : Loc) : Prop := c.bypass l = none ∧ c.rawClash l key = false

/-- Nothing but the cores of the target, the cluster's own record and the model's counter has moved: stored words, queue,
registers, other cores, jobs, mailboxes, domains, matrices, faults, ports, flash, fuses, security, pins and service. -/
def coresOnly (s u : State) (t : Tgt) : Prop :=
  u.mem = s.mem ∧ u.pending = s.pending ∧ (∀ k, k ∉ s.chip.coresOf t → u.chip.core k = s.chip.core k)
    ∧ u.chip = { s.chip with cores := u.chip.cores, clusters := u.chip.clusters, freeCtr := s.chip.freeCtr + 1 }

/-- The core has retired one word and stands at `pc`; its privilege, its contexts but the current bank, its exception
registers and its pending interrupts are as before. -/
def retiredTo (pc : Nat) (x y : Core) : Prop :=
  y.pc = pc ∧ y.retired = x.retired + 1 ∧ y.lastPc = x.pc ∧ y.sup = x.sup ∧ y.key = x.key ∧ y.erec = x.erec
    ∧ (∀ k, k ≠ x.key → k ≠ x.cur → y.bankOf k = x.bankOf k)
    ∧ y.evbase = x.evbase ∧ y.escbase = x.escbase ∧ y.cause = x.cause ∧ y.eaddr = x.eaddr
    ∧ y.escActive = x.escActive ∧ y.irq = x.irq ∧ y.released = x.released ∧ y.live = x.live

/-- The core has gone on to the next word (R236: words are four bytes). -/
def wentOn (x y : Core) : Prop := retiredTo ((x.pc + 4) % 2 ^ 48) x y

/-- General registers but `d` are as before. -/
def gBut (d : Reg) (x y : Core) : Prop := ∀ r, r ≠ d → y.g r = x.g r

/-- Gd takes `v`, FLAGS take `f`; every other general register, the bank registers, STE, RSP, the shadow stack and the V
registers are as before. -/
def setsReg (d : Reg) (v : Word) (f : Flags) (x y : Core) : Prop :=
  y.g d = v ∧ gBut d x y ∧ y.bank.flags = f ∧ y.bank.b = x.bank.b ∧ y.bank.ste = x.bank.ste
    ∧ y.rsp = x.rsp ∧ y.shadow = x.shadow ∧ y.v = x.v

/-- FLAGS take `f`; every other register is as before. -/
def setsFlags (f : Flags) (x y : Core) : Prop :=
  (∀ r, y.g r = x.g r) ∧ y.bank.flags = f ∧ y.bank.b = x.bank.b ∧ y.bank.ste = x.bank.ste
    ∧ y.rsp = x.rsp ∧ y.shadow = x.shadow ∧ y.v = x.v

/-- A word that runs on every core of its target, each on its own registers: it completes, moves nothing else, and each core
goes on to the next word with `P` between the core before and after. -/
def wordDoes (i : Instr) (t : Tgt) (s : State) (P : Core → Core → Prop) : Prop :=
  takes s t → answers i s fun u => coresOnly s u t
    ∧ ∀ k ∈ s.chip.coresOf t, wentOn (s.chip.core k) (u.chip.core k) ∧ P (s.chip.core k) (u.chip.core k)

/-- As `wordDoes`, where `P` also names the core. -/
def wordDoesAt (i : Instr) (t : Tgt) (s : State) (P : Nat → Core → Core → Prop) : Prop :=
  answers i s fun u => coresOnly s u t
    ∧ ∀ k ∈ s.chip.coresOf t, wentOn (s.chip.core k) (u.chip.core k) ∧ P k (s.chip.core k) (u.chip.core k)

/-- The core number whose accesses are presented to the matrix (R293). -/
def leadCore (s : State) (t : Tgt) : Nat := (s.chip.coresOf t).headD 0

/-- A core of the target as its words see the module. -/
def envOfCore (s : State) (t : Tgt) (k : Nat) : Env := s.chip.envAt t (leadCore s t) k

/-- A core after the fetch of its word: its caches alone have moved. -/
def fetched (s : State) (t : Tgt) (k : Nat) : Core := (s.chip.core k).fetch (envOfCore s t k) s.mem

/-- First address of the private Den alias (R242). -/
def ownDen : Tgt → Nat
  | .fox _ => 0x6FFFFFFE0000
  | .badger => 0x6FFFFFFF0000

/-- The stored word of core `k`'s own Den at offset `o`. -/
def denData (s : State) (k o : Nat) : Nat := memWord s.mem (denBase k + o)

/-- That word has been written, and its check bits are those of its data and address (R330). -/
def denClean (s : State) (k o : Nat) : Prop := memChk s.mem (denBase k + o) = some (codeCheck (denData s k o) (o / 8))

/-- Bytes of the stored words outside the words at offsets [lo, hi) of the Dens of the target's cores are as before. -/
def densOnly (s u : State) (t : Tgt) (lo hi : Nat → Nat) : Prop :=
  ∀ a, (∀ k ∈ s.chip.coresOf t, ¬ (denBase k + lo k ≤ a ∧ a < denBase k + hi k)
      ∧ ¬ (chkKey (denBase k + lo k) ≤ a ∧ a ≤ chkKey (denBase k + hi k - 1))) → memGet? u.mem a = memGet? s.mem a

/-- Bytes of the stored words outside the 8-byte words of the Dens of the target's cores that `w` names by core and offset are as before. -/
def densBut (s u : State) (t : Tgt) (w : Nat → Nat → Prop) : Prop :=
  ∀ a, (∀ k ∈ s.chip.coresOf t, ∀ o, w k o → ¬ (denBase k + o ≤ a ∧ a < denBase k + o + 8) ∧ a ≠ chkKey (denBase k + o)) →
    memGet? u.mem a = memGet? s.mem a

/-- Entries of the current shadow stack that hardware holds (R276). -/
def hwEntries (x : Core) : Nat := (x.bankOf x.cur).inHw

/-- As `coresOnly`, but the stored words may have moved. -/
def coresAndMem (s u : State) (t : Tgt) : Prop :=
  u.pending = s.pending ∧ (∀ k, k ∉ s.chip.coresOf t → u.chip.core k = s.chip.core k)
    ∧ u.chip = { s.chip with cores := u.chip.cores, clusters := u.chip.clusters, freeCtr := s.chip.freeCtr + 1 }

/-- Every general register, the bank registers, FLAGS, STE, RSP, the shadow stack and the V registers are as before. -/
def sameRegs (x y : Core) : Prop := y.bank = x.bank ∧ y.rsp = x.rsp ∧ y.shadow = x.shadow ∧ y.v = x.v

/-- The window takes `n` more stores and this word without closing (R296), and no rejoin boundary holds the core (R300). -/
def windowTakes (s : State) (t : Tgt) (k n : Nat) : Prop :=
  (s.chip.core k).win.stores + n ≤ 32 ∧ (s.chip.core k).win.words + 1 < 128 ∧ (s.chip.core k).buffered + n ≤ 64
    ∧ (∀ cl, tgtCluster t = some cl → s.chip.rejoinStall cl (s.chip.core k) = false)

/-- The core can make an exception entry in one step: its stores are decided and acknowledged, fewer than eight entries are
nested, the 0x60 bytes below G15 lie in the part of its own Den that user mode may reach, and no Den is being copied. -/
def canEnter (s : State) (t : Tgt) (k : Nat) : Prop :=
  (s.chip.core k).mustDrain (envOfCore s t k) = false ∧ (s.chip.core k).erec.length < 8
    ∧ ((s.chip.core k).g 15).toNat % 8 = 0 ∧ ownDen t + 0x60 ≤ ((s.chip.core k).g 15).toNat
    ∧ ((s.chip.core k).g 15).toNat ≤ ownDen t + 0x8000
    ∧ (∀ cl, tgtCluster t = some cl → (s.chip.clu cl).resync = none)

/-- Den offset of the frame of an entry (R265). -/
def frameOff (s : State) (t : Tgt) (k : Nat) : Nat := ((s.chip.core k).g 15).toNat - 0x60 - ownDen t

/-- R265: the core has entered an exception: the cause registers, supervisor mode, the exception bank with the frame's address in
its G14, the saved privilege and context in EREC, and control at EVBASE; G15 of the interrupted context points at the frame, and its
other registers are as before. -/
def hasEntered (cause eaddr : Nat) (imp : Bool) (x y : Core) : Prop :=
  y.cause = cause ∧ y.causeImp = imp ∧ y.eaddr = BitVec.ofNat 64 eaddr ∧ y.exc = true ∧ y.sup = true ∧ y.critEnd = none
    ∧ y.pc = x.evbase ∧ y.erec = x.erec ++ [⟨x.sup, x.key⟩]
    ∧ (y.bankOf x.key).g.get 15 = x.g 15 - 0x60#64 ∧ (y.bankOf 0xF).g.get 14 = x.g 15 - 0x60#64
    ∧ (x.key ≠ 0xF → ∀ r : Reg, r ≠ 15 → (y.bankOf x.key).g.get r = x.g r)
    ∧ (y.bankOf x.key).flags = x.bank.flags ∧ (y.bankOf x.key).b = x.bank.b

/-- The frame in the Den (R265): PC, then EADDR, G15 and G0 to G7; STATE carries the cause and the privilege. -/
def framed (s u : State) (t : Tgt) (k pc cause eaddr : Nat) : Prop :=
  let o := frameOff s t k
  denData u k o = pc ∧ denData u k (o + 8) / 2 ^ 56 = cause ∧ denData u k (o + 8) / 2 ^ 47 % 2 = (if (s.chip.core k).sup then 1 else 0)
    ∧ denData u k (o + 0x10) = eaddr ∧ denData u k (o + 0x18) = ((s.chip.core k).g 15).toNat
    ∧ ∀ r : Reg, r.val < 8 → denData u k (o + 0x20 + 8 * r.val) = ((s.chip.core k).g r).toNat

/-- A word that enters an exception on every core of its target, with the frame's PC at `pc`. -/
def wordEnters (i : Instr) (t : Tgt) (s : State) (cause : Nat) (eaddr : Core → Nat) (pc : Core → Nat) : Prop :=
  takes s t → (∀ k ∈ s.chip.coresOf t, canEnter s t k ∧ (s.chip.core k).pc < 2 ^ 48 ∧ eaddr (s.chip.core k) < 2 ^ 64) →
    answers i s fun u => u.pending = s.pending ∧ densOnly s u t (frameOff s t) (fun k => frameOff s t k + 0x60)
      ∧ ∀ k ∈ s.chip.coresOf t, hasEntered cause (eaddr (s.chip.core k)) false (s.chip.core k) (u.chip.core k)
        ∧ framed s u t k (pc (s.chip.core k)) cause (eaddr (s.chip.core k))

/-- N and Z of a result: bit 63, and whether it is 0 (Table 9.3); C and V given. -/
def nz (r : Word) (c v : Bool) : Flags := ⟨r.getLsbD 63, decide (r = 0#64), c, v⟩

/-- Does an exact signed result lie outside INT64? -/
def outside (i : Int) : Bool := decide (i < -2 ^ 63) || decide (2 ^ 63 ≤ i)

/-- Nothing but the LNK registers and the record of one port has moved. -/
def portOnly (s u : State) (p : Nat) : Prop :=
  u.mem = s.mem ∧ u.pending = s.pending ∧ u.chip = { s.chip with regs := u.chip.regs, ports := u.chip.ports }
    ∧ (∀ q, q ≠ p → u.chip.port q = s.chip.port q) ∧ ∀ a, a ≠ R.LNK_STAT p → a ≠ R.LNK_ERR p → u.chip.reg a = s.chip.reg a

end Sys2Proof.Claims

open Sys2Proof Sys2Proof.Machine Sys2Proof.Claims

/-! ## The queue and the whole machine -/

/-- Every step with a command waiting is that command's effect on the state with the queue's rest; with none waiting the module
idles, and only the time moves (DESIGN CHOICE, log 1). -/
def Obligations.StepRunsFrontCommand : Prop :=
  (∀ (c : Instr) (rest : List Instr) (s : State), step { s with pending := c :: rest } = exec c { s with pending := rest })
    ∧ ∀ s : State, step { s with pending := [] }
        = .next { s with pending := [], chip := { s.chip with now := s.chip.now + 1 } }

/-- Every command completes in every state: the module stops on none, and no command's effect touches the queue. -/
def Obligations.EveryCommandAnswersAndKeepsQueue : Prop :=
  ∀ (c : Instr) (s : State), ∃ u, exec c s = .next u ∧ u.pending = s.pending

/-- The stored words keep their canonical form in every step, from every state that has it. -/
def Obligations.EveryStepKeepsMemoryCanonical : Prop :=
  ∀ s u : State, Memory.wf s.mem = true → step s = .next u → Memory.wf u.mem = true

/-! ## Fox and Badger words (chapters 9 and 10) -/

/-- R246 and Table 9.7: the additions and subtractions write Gd and all four flags; C is the carry, or no borrow; V is a signed result outside
64 bits. -/
def Sys2Proof.Claims.AddSubtractWriteResultAndFlags : Prop :=
  ∀ (s : State) (t : Tgt) (d a b : Reg) (imm : BitVec 16),
    wordDoes (.add t d a b) t s (fun x y =>
      setsReg d (x.g a + x.g b) (nz (x.g a + x.g b) (decide (2 ^ 64 ≤ (x.g a).toNat + (x.g b).toNat))
        (outside ((x.g a).toInt + (x.g b).toInt))) x y)
    ∧ wordDoes (.adc t d a b) t s (fun x y =>
      let c := if x.bank.flags.c then 1 else 0
      let r := x.g a + x.g b + BitVec.ofNat 64 c
      setsReg d r (nz r (decide (2 ^ 64 ≤ (x.g a).toNat + (x.g b).toNat + c))
        (outside ((x.g a).toInt + (x.g b).toInt + c))) x y)
    ∧ wordDoes (.sub t d a b) t s (fun x y =>
      setsReg d (x.g a - x.g b) (nz (x.g a - x.g b) (decide ((x.g b).toNat ≤ (x.g a).toNat))
        (outside ((x.g a).toInt - (x.g b).toInt))) x y)
    ∧ wordDoes (.sbc t d a b) t s (fun x y =>
      let c := if x.bank.flags.c then 0 else 1
      let r := x.g a - x.g b - BitVec.ofNat 64 c
      setsReg d r (nz r (decide ((x.g b).toNat + c ≤ (x.g a).toNat))
        (outside ((x.g a).toInt - (x.g b).toInt - c))) x y)
    ∧ wordDoes (.addi t d a imm) t s (fun x y =>
      let i := imm.signExtend 64
      setsReg d (x.g a + i) (nz (x.g a + i) (decide (2 ^ 64 ≤ (x.g a).toNat + i.toNat))
        (outside ((x.g a).toInt + imm.toInt))) x y)

/-- Table 9.7, R249: the bitwise words set V to 0 and leave C. -/
def Sys2Proof.Claims.BitwiseWordsClearVAndKeepC : Prop :=
  ∀ (s : State) (t : Tgt) (d a b : Reg) (imm : BitVec 16),
    let out := fun (r : Core → Word) (x y : Core) => setsReg d (r x) (nz (r x) x.bank.flags.c false) x y
    wordDoes (.and t d a b) t s (out fun x => x.g a &&& x.g b)
    ∧ wordDoes (.or t d a b) t s (out fun x => x.g a ||| x.g b)
    ∧ wordDoes (.xor t d a b) t s (out fun x => x.g a ^^^ x.g b)
    ∧ wordDoes (.andi t d a imm) t s (out fun x => x.g a &&& imm.setWidth 64)
    ∧ wordDoes (.ori t d a imm) t s (out fun x => x.g a ||| imm.setWidth 64)
    ∧ wordDoes (.xori t d a imm) t s (out fun x => x.g a ^^^ imm.setWidth 64)
    ∧ wordDoes (.tst t a b) t s (fun x y =>
        setsFlags (nz (x.g a &&& x.g b) x.bank.flags.c false) x y)

/-- Table 9.7, R249: shifts by a register count of 64 or more give 0 or the sign fill; shifts, MIN and MAX leave C and V. -/
def Sys2Proof.Claims.ShiftsAndMinMaxKeepCarryAndOverflow : Prop :=
  ∀ (s : State) (t : Tgt) (d a b : Reg) (n : BitVec 6),
    let out := fun (r : Core → Word) (x y : Core) => setsReg d (r x) (nz (r x) x.bank.flags.c x.bank.flags.v) x y
    wordDoes (.shl t d a b) t s (out fun x => BitVec.ofNat 64 ((x.g a).toNat * 2 ^ (x.g b).toNat))
    ∧ wordDoes (.shr t d a b) t s (out fun x => BitVec.ofNat 64 ((x.g a).toNat / 2 ^ (x.g b).toNat))
    ∧ wordDoes (.sar t d a b) t s (out fun x => BitVec.ofInt 64 ((x.g a).toInt / 2 ^ (x.g b).toNat))
    ∧ wordDoes (.shli t d a n) t s (out fun x => x.g a <<< n.toNat)
    ∧ wordDoes (.shri t d a n) t s (out fun x => x.g a >>> n.toNat)
    ∧ wordDoes (.sari t d a n) t s (out fun x => (x.g a).sshiftRight n.toNat)
    ∧ wordDoes (.min t d a b) t s (out fun x => if (x.g a).toInt ≤ (x.g b).toInt then x.g a else x.g b)
    ∧ wordDoes (.max t d a b) t s (out fun x => if (x.g a).toInt ≤ (x.g b).toInt then x.g b else x.g a)

/-- R246 and Table 9.7: the additions and subtractions write Gd and all four flags; C is the carry, or no borrow; V is a signed result outside 64
bits. Table 9.7, R249: the bitwise words set V to 0 and leave C. Table 9.7, R249: shifts by a register count of 64 or more give 0 or the sign fill;
shifts, MIN and MAX leave C and V. -/
def Obligations.IntegerSumsShiftsAndLogicWriteFlags : Prop := AddSubtractWriteResultAndFlags ∧ BitwiseWordsClearVAndKeepC ∧ ShiftsAndMinMaxKeepCarryAndOverflow

/-- Table 9.7, R249, R252, R255: NEG and NEGS differ only for MIN, where both set V; MUL gives the low 64 bits with V for a product outside
INT64, MULH and MULHU the high 64 bits with V 0; all leave C. -/
def Sys2Proof.Claims.NegateAndMultiplyResults : Prop :=
  ∀ (s : State) (t : Tgt) (d a b : Reg),
    let out := fun (r : Core → Word) (v : Core → Bool) (x y : Core) => setsReg d (r x) (nz (r x) x.bank.flags.c (v x)) x y
    wordDoes (.neg t d a) t s (out (fun x => 0#64 - x.g a) fun x => decide (x.g a = BitVec.intMin 64))
    ∧ wordDoes (.negs t d a) t s (out (fun x => if x.g a = BitVec.intMin 64 then BitVec.intMax 64 else 0#64 - x.g a)
        fun x => decide (x.g a = BitVec.intMin 64))
    ∧ wordDoes (.mul t d a b) t s (out (fun x => x.g a * x.g b) fun x => outside ((x.g a).toInt * (x.g b).toInt))
    ∧ wordDoes (.mulh t d a b) t s
        (out (fun x => BitVec.ofInt 64 ((x.g a).toInt * (x.g b).toInt / 2 ^ 64)) fun _ => false)
    ∧ wordDoes (.mulhu t d a b) t s
        (out (fun x => BitVec.ofNat 64 ((x.g a).toNat * (x.g b).toNat / 2 ^ 64)) fun _ => false)

/-- R254, R255 (with R140 for a divisor of 0): no divide traps; division by zero gives C 1 and V 1, MIN by -1 gives V 1 alone. -/
def Sys2Proof.Claims.DivideWordsReportThroughFlags : Prop :=
  ∀ (s : State) (t : Tgt) (d a b : Reg),
    let min := BitVec.intMin 64
    let out := fun (q : Core → Word) (z : Core → Word) (ov : Core → Bool) (x y : Core) =>
      let r := if x.g b = 0#64 then z x else q x
      setsReg d r (nz r (decide (x.g b = 0#64)) (decide (x.g b = 0#64) || ov x)) x y
    let ovf := fun (x : Core) => decide (x.g a = min) && decide (x.g b = BitVec.allOnes 64)
    wordDoes (.div t d a b) t s (out (fun x => BitVec.ofInt 64 ((x.g a).toInt.tdiv (x.g b).toInt))
        (fun x => if (x.g a).toInt < 0 then min else BitVec.intMax 64) ovf)
    ∧ wordDoes (.rem t d a b) t s (out (fun x => BitVec.ofInt 64 ((x.g a).toInt.tmod (x.g b).toInt)) (fun x => x.g a) ovf)
    ∧ wordDoes (.divu t d a b) t s (out (fun x => x.g a / x.g b) (fun _ => BitVec.allOnes 64) fun _ => false)
    ∧ wordDoes (.remu t d a b) t s (out (fun x => x.g a % x.g b) (fun x => x.g a) fun _ => false)

/-- Table 9.7: compares write FLAGS alone, as the subtraction does; MOVI and MOVK write Gd and no flag. -/
def Sys2Proof.Claims.CompareAndMoveImmediate : Prop :=
  ∀ (s : State) (t : Tgt) (d a b : Reg) (imm : BitVec 16) (k : Fin 4),
    wordDoes (.cmp t a b) t s (fun x y =>
      setsFlags (nz (x.g a - x.g b) (decide ((x.g b).toNat ≤ (x.g a).toNat)) (outside ((x.g a).toInt - (x.g b).toInt))) x y)
    ∧ wordDoes (.cmpi t a imm) t s (fun x y =>
      let i := imm.signExtend 64
      setsFlags (nz (x.g a - i) (decide (i.toNat ≤ (x.g a).toNat)) (outside ((x.g a).toInt - imm.toInt))) x y)
    ∧ wordDoes (.movi t d imm) t s (fun x y => setsReg d (imm.signExtend 64) x.bank.flags x y)
    ∧ wordDoes (.movk t d k imm) t s (fun x y =>
      gBut d x y ∧ y.bank.flags = x.bank.flags
        ∧ ∀ i < 64, (y.g d).getLsbD i
            = if 16 * k.val ≤ i ∧ i < 16 * k.val + 16 then imm.getLsbD (i - 16 * k.val) else (x.g d).getLsbD i)

/-- Table 9.7, R249, R252, R255: NEG and NEGS differ only for MIN, where both set V; MUL gives the low 64 bits with V for a product outside INT64,
MULH and MULHU the high 64 bits with V 0; all leave C. R254, R255 (with R140 for a divisor of 0): no divide traps; division by zero gives C 1 and V 1,
MIN by -1 gives V 1 alone. Table 9.7: compares write FLAGS alone, as the subtraction does; MOVI and MOVK write Gd and no flag. -/
def Obligations.ProductsQuotientsComparesAndMoves : Prop := NegateAndMultiplyResults ∧ DivideWordsReportThroughFlags ∧ CompareAndMoveImmediate

/-- R232: LDB takes Ga[47:16] and ignores the other bits; MFB gives Bn times 65,536. -/
def Sys2Proof.Claims.BankRegistersHoldAddressBits : Prop :=
  ∀ (s : State) (t : Tgt) (d a : Reg) (n : Fin 8),
    wordDoes (.ldb t n a) t s (fun x y =>
      (y.bN n.val).toNat = (x.g a).toNat / 65536 % 2 ^ 32 ∧ (∀ r, y.g r = x.g r) ∧ y.bank.flags = x.bank.flags
        ∧ (∀ j : Fin 8, j ≠ n → y.bN j.val = x.bN j.val) ∧ y.v = x.v)
    ∧ wordDoes (.mfb t d n) t s (fun x y => setsReg d (BitVec.ofNat 64 ((x.bN n.val).toNat * 65536)) x.bank.flags x y)

/-- R237, R238: both slots of a legal pair read before either writes, and slot A's result is written first; FLAGS are written by CMP, CMPI
and TST alone. The pairs here take one form of each kind: two results, a result with a compare, and two moves that swap nothing because slot B
may not read what slot A writes. -/
def Sys2Proof.Claims.LegalShortPairsReadBeforeTheyWrite : Prop :=
  ∀ (s : State) (t : Tgt) (d e a b : Reg) (u : BitVec 4),
    (e ≠ d → b ≠ d → wordDoes (.shortPair t (.add d a) (.mov e b)) t s fun x y =>
      y.g d = x.g d + x.g a ∧ y.g e = x.g b ∧ (∀ r, r ≠ d → r ≠ e → y.g r = x.g r) ∧ y.bank.flags = x.bank.flags)
    ∧ (a ≠ d → b ≠ d → wordDoes (.shortPair t (.subi d u) (.cmp a b)) t s fun x y =>
      setsReg d (x.g d - u.setWidth 64) (nz (x.g a - x.g b) (decide ((x.g b).toNat ≤ (x.g a).toNat))
        (outside ((x.g a).toInt - (x.g b).toInt))) x y)
    ∧ (e ≠ d → wordDoes (.shortPair t (.mov d e) (.not e e)) t s fun x y =>
      y.g d = x.g e ∧ y.g e = ~~~(x.g e) ∧ (∀ r, r ≠ d → r ≠ e → y.g r = x.g r) ∧ y.bank.flags = x.bank.flags)

/-- R232: LDB takes Ga[47:16] and ignores the other bits; MFB gives Bn times 65,536. R237, R238: both slots of a legal pair read before either writes,
and slot A's result is written first; FLAGS are written by CMP, CMPI and TST alone. The pairs here take one form of each kind: two results, a result
with a compare, and two moves that swap nothing because slot B may not read what slot A writes. -/
def Obligations.BankRegistersAndShortPairs : Prop := BankRegistersHoldAddressBits ∧ LegalShortPairsReadBeforeTheyWrite

/-- R230, R236, R238, R234, R240, R283 with R265: a word that no row encodes, a short pair that breaks the pairing rule, a word that the configuration
lacks, an unlisted special register, a supervisor word in user mode, an address above 48 bits, a target that is not a multiple of 4 and a
misaligned STM each enter their exception with the frame's PC at the word itself. A word with bit 15 set, and one of an opcode outside Table
9.7, is one that no row encodes. That a word which some row encodes is that row's to run, and leaves the state under this one, is the model's choice
(log 67). -/
def Sys2Proof.Claims.RefusedWordsEnterTheirException : Prop :=
  ∀ (s : State) (t : Tgt) (n : Fin 48) (d e a : Reg) (w : BitVec 32) (disp mask : BitVec 16) (h : Fin 2),
    let here := fun x : Core => x.pc
    let zero := fun _ : Core => 0
    let g := fun x : Core => (x.g a).toNat
    let all := fun (t : Tgt) (p : Core → Prop) => ∀ k ∈ s.chip.coresOf t, p (s.chip.core k)
    (w.getLsbD 31 = false → w.toNat / 2 ^ 24 = 0 → decodeWord t w = none)
    ∧ (w.getLsbD 31 = true → w.getLsbD 15 = true → decodeWord t w = none)
    ∧ (decodeWord t w = none → wordEnters (.illegalInstruction t w) t s 0x01 zero here)
    ∧ (decodeWord t w ≠ none → exec (.illegalInstruction t w) s = .next s)
    ∧ wordEnters (.shortPair t (.add d a) (.mov e d)) t s 0x02 zero here
    ∧ wordEnters (.vld .badger d a 0 0) .badger s 0x01 zero here
    ∧ wordEnters (.sIssue .badger d 0) .badger s 0x01 zero here
    ∧ wordEnters (.stm .badger a mask) .badger s 0x01 zero here
    ∧ wordEnters (.saveh (.fox n) a h) (.fox n) s 0x01 zero here
    ∧ wordEnters (.mfs t d 0x007) t s 0x01 zero here
    ∧ (all t (fun x => x.sup = false) → wordEnters (.mfs t d 0x010) t s 0x03 zero here
        ∧ wordEnters (.mts t 0x005 a) t s 0x03 zero here ∧ wordEnters (.critEnd t) t s 0x03 zero here
        ∧ (s.chip.barred t = false → wordEnters (.rfe t) t s 0x03 zero here))
    ∧ (all t (fun x => 2 ^ 48 ≤ memSum x (.based a disp)) →
        wordEnters (.ld64 t d (.based a disp)) t s 0x04 (fun x => memSum x (.based a disp)) here
        ∧ wordEnters (.st8 t d (.based a disp)) t s 0x04 (fun x => memSum x (.based a disp)) here)
    ∧ (all t (fun x => g x < 2 ^ 48 ∧ g x % 4 ≠ 0) →
        wordEnters (.jmpr t a) t s 0x05 g here ∧ wordEnters (.callr t a) t s 0x05 g here)
    ∧ (all (.fox n) (fun x => g x % 8 ≠ 0) → wordEnters (.stm (.fox n) a mask) (.fox n) s 0x06 g here)

/-- R265, Table 10.1: SVC enters cause 0x0C with the frame's PC at the next word and u16 in EADDR, and the word counts as retired. -/
def Sys2Proof.Claims.SupervisorCallSavesNextWord : Prop :=
  ∀ (s : State) (t : Tgt) (imm : BitVec 16),
    wordEnters (.svc t imm) t s 0x0C (fun _ => imm.toNat) (fun x => (x.pc + 4) % 2 ^ 48)
    ∧ (takes s t → (∀ k ∈ s.chip.coresOf t, canEnter s t k) → answers (.svc t imm) s fun u =>
        ∀ k ∈ s.chip.coresOf t, (u.chip.core k).retired = (s.chip.core k).retired + 1)

/-- R263, Table 10.1: a fetch that is answered DEFAULT or ABORT enters cause 0x08 with the PC in EADDR; an
interrupt is taken at a word boundary with the frame's PC there; a CRIT window whose last cycle has passed enters cause 0x10. -/
def Sys2Proof.Claims.FetchErrorsAndInterruptsEnter : Prop :=
  ∀ (s : State) (t : Tgt), takes s t →
    (∀ k ∈ s.chip.coresOf t, canEnter s t k ∧ (s.chip.core k).pc < 2 ^ 48 ∧ (envOfCore s t k).job = none) →
    (∀ resp : Fin 3, resp ≠ 1 →
      answers (.busErrorFetch t resp) s fun u => ∀ k ∈ s.chip.coresOf t,
        hasEntered 0x08 (s.chip.core k).pc false (s.chip.core k) (u.chip.core k)
          ∧ framed s u t k (s.chip.core k).pc 0x08 (s.chip.core k).pc)
    ∧ (∀ (cause : Nat) (v : Word), (∀ k ∈ s.chip.coresOf t, (s.chip.core k).atWord = true ∧ (s.chip.core k).critEnd = none
          ∧ (s.chip.core k).irq = [(cause, v)] ∧ (cause = 0x0A ∨ cause = 0x0E ∨ cause = 0x11)) →
        answers (.interruptTake t) s fun u => ∀ k ∈ s.chip.coresOf t,
          hasEntered cause v.toNat (cause == 0x0A) (s.chip.core k) (u.chip.core k) ∧ (u.chip.core k).irq = []
            ∧ framed s u t k (s.chip.core k).pc cause v.toNat)
    ∧ ((∀ k ∈ s.chip.coresOf t, (s.chip.core k).atWord = true
          ∧ ∃ c, (s.chip.core k).critEnd = some c ∧ c ≤ (envOfCore s t k).cycle) →
        answers (.critWindowExpiry t) s fun u => ∀ k ∈ s.chip.coresOf t,
          hasEntered 0x10 0 false (s.chip.core k) (u.chip.core k) ∧ framed s u t k (s.chip.core k).pc 0x10 0)

/-- R230, R236, R238, R234, R240, R283 with R265: a word that no row encodes, a short pair that breaks the pairing rule, a word that the configuration
lacks, an unlisted special register, a supervisor word in user mode, an address above 48 bits, a target that is not a multiple of 4 and a misaligned
STM each enter their exception with the frame's PC at the word itself. R263, Table 10.1: a fetch that is answered DEFAULT or ABORT enters cause 0x08
with the PC in EADDR; an interrupt is taken at a word boundary with the frame's PC there; a CRIT window whose last cycle has passed enters cause 0x10.
-/
def Obligations.RefusalsFetchErrorsAndInterruptsEnter : Prop := RefusedWordsEnterTheirException ∧ FetchErrorsAndInterruptsEnter

/-- R269: in supervisor mode CRIT with imm16 = n - 1 opens a window of n cycles counted from the next, and CRIT with imm16 = 0x8000 closes the
window, with no other effect where none is open; both leave every register. In user mode both raise the privilege exception. Any other imm16
is illegal, and so is CRIT n while a window is open. -/
def Obligations.CritOpensAndClosesAWindow : Prop :=
  ∀ (s : State) (t : Tgt) (imm : BitVec 16),
    let all := fun (p : Core → Prop) => ∀ k ∈ s.chip.coresOf t, p (s.chip.core k)
    let here := fun x : Core => x.pc
    let zero := fun _ : Core => 0
    (all (fun x => x.sup = true) →
      (imm.toNat < 512 → all (fun x => x.critEnd = none) →
        takes s t → wordDoesAt (.crit t imm) t s fun k x y =>
          y.critEnd = some ((envOfCore s t k).cycle + (imm.toNat + 1) + 1) ∧ sameRegs x y)
      ∧ wordDoes (.critEnd t) t s (fun x y => y.critEnd = none ∧ sameRegs x y)
      ∧ wordDoes (.crit t 0x8000#16) t s (fun x y => y.critEnd = none ∧ sameRegs x y))
    ∧ (all (fun x => x.sup = false) →
      (imm.toNat < 512 → all (fun x => x.critEnd = none) → wordEnters (.crit t imm) t s 0x03 zero here)
      ∧ wordEnters (.critEnd t) t s 0x03 zero here ∧ wordEnters (.crit t 0x8000#16) t s 0x03 zero here)
    ∧ (512 ≤ imm.toNat → imm ≠ 0x8000#16 → wordEnters (.crit t imm) t s 0x01 zero here)
    ∧ (imm.toNat < 512 → all (fun x => x.critEnd.isSome) → wordEnters (.crit t imm) t s 0x01 zero here)

/-- R267: RFE restores from the frame that G14 names: PC, privilege, FLAGS, G0 to G7 and G15 of the context that STATE names, and takes the
newest entry off EREC; the context becomes current. -/
def Obligations.ReturnFromExceptionRestoresFrame : Prop :=
  ∀ (s : State) (t : Tgt) (o : Nat → Nat), takes s t → s.chip.barred t = false →
    (∀ k ∈ s.chip.coresOf t, let x := s.chip.core k
      x.sup = true ∧ x.mustDrain (envOfCore s t k) = false ∧ x.winFresh = true ∧ (x.g 14).toNat = ownDen t + o k ∧ o k % 8 = 0
        ∧ o k + 0x60 ≤ 0x8000 ∧ (∀ i < 12, denClean s k (o k + 8 * i)) ∧ x.spill = none
        ∧ (∃ r e, x.erec = r ++ [e] ∧ (e.sup = true ∨ denData s k (o k + 8) / 2 ^ 47 % 2 = 0))
        ∧ (let c := denData s k (o k + 8) / 2 ^ 48 % 16
           c < 8 ∧ x.resident.contains c = true ∧ x.live.contains c = true)) →
    answers (.rfe t) s fun u => u.mem = s.mem ∧ u.pending = s.pending
      ∧ ∀ k ∈ s.chip.coresOf t, let x := s.chip.core k
        let y := u.chip.core k
        let st := denData s k (o k + 8)
        let c := st / 2 ^ 48 % 16
        y.pc = denData s k (o k) % 2 ^ 48 ∧ (y.sup = true ↔ st / 2 ^ 47 % 2 = 1) ∧ y.erec = x.erec.dropLast
          ∧ y.exc = false ∧ y.cur = c ∧ flagsNat y.bank.flags = st % 16
          ∧ (y.g 15).toNat = denData s k (o k + 0x18) ∧ y.escActive = false
          ∧ ∀ r : Reg, r.val < 8 → (y.g r).toNat = denData s k (o k + 0x20 + 8 * r.val)

/-- The state once the windows of the target's cores have been closed and decided, with no store left in them (R296, R298). -/
def windowsDecided (u : State) (t : Tgt) : State :=
  { u with chip := (u.chip.coresOf t).foldl (fun c k => c.setCore k { c.core k with win := {}, closed := none }) u.chip }

/-- R267 with R266: entry and return undo each other on the registers of the frame: after SVC, once the window that the entry opened has
been decided, RFE resumes at the word after SVC with the privilege, FLAGS, G0 to G7 and G15 that the context had. -/
def Sys2Proof.Claims.SupervisorCallThenReturnResumes : Prop :=
  ∀ (s : State) (t : Tgt) (imm : BitVec 16), takes s t →
    (∀ k ∈ s.chip.coresOf t, let x := s.chip.core k
      canEnter s t k ∧ x.pc < 2 ^ 48 ∧ x.exc = false ∧ x.cur < 4 ∧ x.resident = [x.cur] ∧ x.live = [x.cur] ∧ x.spill = none) →
    ∀ u, exec (.svc t imm) s = .next u → let w := windowsDecided u t
      takes w t → w.chip.barred t = false →
      answers (.rfe t) w fun v => ∀ k ∈ s.chip.coresOf t, let x := s.chip.core k
        let y := v.chip.core k
        y.pc = (x.pc + 4) % 2 ^ 48 ∧ y.sup = x.sup ∧ y.cur = x.cur ∧ y.exc = false ∧ y.bank.flags = x.bank.flags
          ∧ y.erec = x.erec ∧ ∀ r : Reg, (r.val < 8 ∨ r = 15) → y.g r = x.g r

/-- R265, Table 10.1: SVC enters cause 0x0C with the frame's PC at the next word and u16 in EADDR, and the word counts as retired. R267 with R266:
entry and return undo each other on the registers of the frame: after SVC, once the window that the entry opened has been decided, RFE resumes at the
word after SVC with the privilege, FLAGS, G0 to G7 and G15 that the context had. -/
def Obligations.SupervisorCallsSaveAndReturn : Prop := SupervisorCallSavesNextWord ∧ SupervisorCallThenReturnResumes

/-- R247, R248, Table 9.8: a branch goes to PC + 4 times disp20 when its condition holds, and on to the next word when it does not;
code 0xF is illegal; JMPR goes to Ga. No register moves. -/
def Sys2Proof.Claims.BranchesTestTheConditionTable : Prop :=
  ∀ (s : State) (t : Tgt) (cc : BitVec 4) (disp : BitVec 20) (a : Reg),
    let cond := fun f : Flags =>
      [f.z, !f.z, f.c, !f.c, f.n, !f.n, f.v, !f.v, f.c && !f.z, !f.c || f.z, f.n == f.v, f.n != f.v,
        !f.z && f.n == f.v, f.z || f.n != f.v, true]
    (takes s t → cc ≠ 15#4 → answers (.bCc t cc disp) s fun u => coresOnly s u t
      ∧ ∀ k ∈ s.chip.coresOf t, let x := s.chip.core k
        let y := u.chip.core k
        sameRegs x y ∧ ((cond x.bank.flags).getD cc.toNat false = false → wentOn x y)
          ∧ ((cond x.bank.flags).getD cc.toNat false = true →
              ∀ p : Nat, (p : Int) = (x.pc : Int) + 4 * disp.toInt → p < 2 ^ 48 → retiredTo p x y))
    ∧ wordEnters (.bCc t 15#4 disp) t s 0x01 (fun _ => 0) (fun x => x.pc)
    ∧ (takes s t → (∀ k ∈ s.chip.coresOf t, ((s.chip.core k).g a).toNat < 2 ^ 48 ∧ ((s.chip.core k).g a).toNat % 4 = 0) →
        answers (.jmpr t a) s fun u => coresOnly s u t ∧ ∀ k ∈ s.chip.coresOf t,
          retiredTo ((s.chip.core k).g a).toNat (s.chip.core k) (u.chip.core k) ∧ sameRegs (s.chip.core k) (u.chip.core k))

/-- R251, R276: CALL and CALLR move RSP down by 8, write PC + 4 at Den offset RSP and on the shadow stack, and go to the target; RET goes to the
address at RSP when the shadow stack agrees, and moves RSP up by 8. Nothing else is stored while the hardware part of the shadow stack has room; a
CALL that finds 32 entries there writes the oldest to the spill area too, inside the same core's Den. -/
def Sys2Proof.Claims.CallAndReturnUseTheDenStack : Prop :=
  ∀ (s : State) (t : Tgt) (disp : BitVec 24) (a : Reg), takes s t → s.chip.firstTrap t = none →
    let pushed := fun (u : State) (target : Core → Nat) =>
      coresAndMem s u t
      ∧ ((∀ k ∈ s.chip.coresOf t, hwEntries (s.chip.core k) < 32) →
          densOnly s u t (fun k => (s.chip.core k).rsp - 8) (fun k => (s.chip.core k).rsp))
      ∧ densOnly s u t (fun _ => 0x8000) (fun _ => 0x10000)
      ∧ ∀ k ∈ s.chip.coresOf t, let x := s.chip.core k
        let y := u.chip.core k
        y.rsp = x.rsp - 8 ∧ y.shadow = ((x.pc + 4) % 2 ^ 48) :: x.shadow ∧ denData u k (x.rsp - 8) = (x.pc + 4) % 2 ^ 48
          ∧ y.pc = target x ∧ y.retired = x.retired + 1 ∧ (∀ r, y.g r = x.g r) ∧ y.bank.flags = x.bank.flags
    let room := ∀ k ∈ s.chip.coresOf t, let x := s.chip.core k
      x.cur < (envOfCore s t k).nctx ∧ x.rsp % 8 = 0 ∧ x.stackBase + 8 ≤ x.rsp ∧ x.rsp ≤ x.stackBase + 0x800
        ∧ x.shadow.length < 256 ∧ windowTakes s t k 1 ∧ ∀ cl, tgtCluster t = some cl → (s.chip.clu cl).resync = none
    (room → (∀ k ∈ s.chip.coresOf t, ∃ p : Nat, (p : Int) = ((s.chip.core k).pc : Int) + 4 * disp.toInt ∧ p < 2 ^ 48) →
      answers (.call t disp) s fun u => pushed u fun x => ((x.pc : Int) + 4 * disp.toInt).toNat)
    ∧ (room → (∀ k ∈ s.chip.coresOf t, ((s.chip.core k).g a).toNat < 2 ^ 48 ∧ ((s.chip.core k).g a).toNat % 4 = 0) →
      answers (.callr t a) s fun u => pushed u fun x => (x.g a).toNat)
    ∧ ((∀ k ∈ s.chip.coresOf t, let x := s.chip.core k
          x.cur < (envOfCore s t k).nctx ∧ x.rsp % 8 = 0 ∧ x.stackBase ≤ x.rsp ∧ x.rsp + 8 ≤ x.stackBase + 0x800
            ∧ denClean s k x.rsp ∧ (1 < hwEntries x ∨ x.shadow.length ≤ 1)
            ∧ ∃ l, x.shadow = denData s k x.rsp :: l) →
        answers (.ret t) s fun u => coresOnly s u t ∧ ∀ k ∈ s.chip.coresOf t, let x := s.chip.core k
          let y := u.chip.core k
          y.pc = denData s k x.rsp % 2 ^ 48 ∧ y.rsp = x.rsp + 8 ∧ y.shadow = x.shadow.tail ∧ y.retired = x.retired + 1
            ∧ (∀ r, y.g r = x.g r) ∧ y.bank.flags = x.bank.flags)

/-- R247, R248, Table 9.8: a branch goes to PC + 4 times disp20 when its condition holds, and on to the next word when it does not; code 0xF is
illegal; JMPR goes to Ga. No register moves. R251, R276: CALL and CALLR move RSP down by 8, write PC + 4 at Den offset RSP and on the shadow stack,
and go to the target; RET goes to the address at RSP when the shadow stack agrees, and moves RSP up by 8. Nothing else is stored. -/
def Obligations.BranchesCallsAndReturnsMoveThePc : Prop := BranchesTestTheConditionTable ∧ CallAndReturnUseTheDenStack

/-- R239 to R243, Table 9.7: each load writes the bytes that its access delivers, zero-extended, or sign-extended in the S forms, into Gt and
leaves every other register and all stored words. The members' requests agree (R293): none inside the own Den or the store buffer, the same `q`
elsewhere. -/
def Sys2Proof.Claims.LoadsExtendTheirBytes : Prop :=
  ∀ (s : State) (t : Tgt) (d : Reg) (mo : MemOp) (a : Reg) (imm : BitVec 16) (v : Nat → Nat),
    let loads := fun (i : Instr) (mo : MemOp) (n : Nat) (cached : Bool) (ext : Nat → Word) =>
      takes s t →
      (∃ q : List Request, ∀ k ∈ s.chip.coresOf t, memSum (s.chip.core k) mo < 2 ^ 48
        ∧ ∃ cache, loadBytes (envOfCore s t k) (fetched s t k) s.mem (memSum (s.chip.core k) mo) n cached
            = .value (v k) cache (q.map Eff.request)) →
      wordDoesAt i t s fun k x y => setsReg d (ext (v k)) x.bank.flags x y
    let zero := BitVec.ofNat 64
    loads (.ld8 t d mo) mo 1 true zero ∧ loads (.ld16 t d mo) mo 2 true zero ∧ loads (.ld32 t d mo) mo 4 true zero
    ∧ loads (.ld64 t d mo) mo 8 true zero
    ∧ loads (.ld8s t d mo) mo 1 true (fun w => (BitVec.ofNat 8 w).signExtend 64)
    ∧ loads (.ld16s t d mo) mo 2 true (fun w => (BitVec.ofNat 16 w).signExtend 64)
    ∧ loads (.ld32s t d mo) mo 4 true (fun w => (BitVec.ofNat 32 w).signExtend 64)
    ∧ loads (.ldu64 t d a imm) (.based a imm) 8 false zero

/-- R242, R274, R330, R331: a load inside one clean word of the core's own Den delivers the stored bytes, in user mode below offset 0x8000 and in
supervisor mode everywhere, and moves no cache line; user mode above raises the privilege exception. -/
def Sys2Proof.Claims.OwnDenLoadsDeliverStoredBytes : Prop :=
  ∀ (s : State) (t : Tgt) (k : Nat) (x : Core) (o n : Nat) (cached : Bool),
    let e := envOfCore s t k
    0 < n → o % 8 + n ≤ 8 → o + n ≤ e.denSize →
      ((x.sup = true ∨ o + n ≤ 0x8000) → denClean s k (o / 8 * 8) →
        loadBytes e x s.mem (ownDen t + o) n cached
          = .value (denData s k (o / 8 * 8) / 2 ^ (8 * (o % 8)) % 2 ^ (8 * n)) x.dcache [])
      ∧ (x.sup = false → 0x8000 ≤ o → loadBytes e x s.mem (ownDen t + o) n cached = .trap ⟨0x03, ownDen t + o⟩ [])

/-- R243: a load whose bytes all lie in one store still buffered takes them from that store; one that overlaps it in part waits. -/
def Sys2Proof.Claims.LoadsForwardFromTheStoreBuffer : Prop :=
  ∀ (e : Env) (x : Core) (m : Memory) (b : BufStore) (rest : List BufStore) (a n : Nat) (cached : Bool),
    x.win.buf = rest ++ [b] → preExc e x a n false = none → e.denOff a = none → 0 < n →
      (b.addr ≤ a → a + n ≤ b.addr + b.size →
        loadBytes e x m a n cached = .value (b.data / 2 ^ (8 * (a - b.addr)) % 2 ^ (8 * n)) x.dcache [])
      ∧ (b.addr < a + n → a < b.addr + b.size → (a < b.addr ∨ b.addr + b.size < a + n) →
        loadBytes e x m a n cached = .wait)

/-- R239 to R243, Table 9.7: each load writes the bytes that its access delivers, zero-extended, or sign-extended in the S forms, into Gt and leaves
every other register and all stored words. R242, R274, R330, R331: a load inside one clean word of the core's own Den delivers the stored bytes, in user
mode below offset 0x8000 and in supervisor mode everywhere, and moves no cache line; user mode above raises the privilege exception. R243: a load whose bytes all lie in one store still buffered takes them from that store; one that overlaps it in part waits. -/
def Obligations.LoadsDeliverExtendAndForward : Prop := LoadsExtendTheirBytes ∧ OwnDenLoadsDeliverStoredBytes ∧ LoadsForwardFromTheStoreBuffer

/-- R239, R240, R271, R297: a store outside the own Den that passes its checks waits in the window store buffer with its address, size, low bytes
and privilege, counts as one store of the window, and changes no stored word. -/
def Sys2Proof.Claims.StoresWaitInTheWindowBuffer : Prop :=
  ∀ (s : State) (t : Tgt) (d : Reg) (mo : MemOp),
    let stores := fun (i : Instr) (n : Nat) =>
      takes s t →
      (∀ k ∈ s.chip.coresOf t, windowTakes s t k 1 ∧ memSum (s.chip.core k) mo < 2 ^ 48
        ∧ (envOfCore s t k).denOff (memSum (s.chip.core k) mo) = none
        ∧ preExc (envOfCore s t k) (s.chip.core k) (memSum (s.chip.core k) mo) n true = none) →
      wordDoesAt i t s fun _ x y => sameRegs x y ∧ y.win.stores = x.win.stores + 1
        ∧ y.win.buf = x.win.buf ++ [⟨memSum x mo, n, (x.g d).toNat % 2 ^ (8 * n), x.sup, (envOfCore s t (leadCore s t)).job⟩]
    stores (.st8 t d mo) 1 ∧ stores (.st16 t d mo) 2 ∧ stores (.st32 t d mo) 4 ∧ stores (.st64 t d mo) 8

/-- R242: a store to the core's own Den is performed at once, in each core's own copy: the bytes stored take the low bytes of Gt, the word's
other bytes stay, and so does every byte of the stored words elsewhere. -/
def Sys2Proof.Claims.OwnDenStoresArePerformedAtOnce : Prop :=
  ∀ (s : State) (t : Tgt) (d : Reg) (mo : MemOp) (o : Nat → Nat),
    let stores := fun (i : Instr) (n : Nat) =>
      takes s t →
      (∀ k ∈ s.chip.coresOf t, let x := s.chip.core k
        windowTakes s t k 1 ∧ memSum x mo = ownDen t + o k ∧ o k % 8 + n ≤ 8 ∧ o k + n ≤ 0x8000
          ∧ denClean s k (o k / 8 * 8) ∧ ∀ cl, tgtCluster t = some cl → (s.chip.clu cl).resync = none) →
      answers i s fun u => coresAndMem s u t ∧ densOnly s u t (fun k => o k / 8 * 8) (fun k => o k / 8 * 8 + 8)
        ∧ ∀ k ∈ s.chip.coresOf t, let x := s.chip.core k
          let y := u.chip.core k
          wentOn x y ∧ sameRegs x y ∧ y.win.buf = x.win.buf ∧ denClean u k (o k / 8 * 8)
            ∧ (∀ b < n, memGet? u.mem (denBase k + o k + b) = some (BitVec.ofNat 8 ((x.g d).toNat / 2 ^ (8 * b))))
            ∧ ∀ j < 8, (j < o k % 8 ∨ o k % 8 + n ≤ j) →
                denData u k (o k / 8 * 8) / 2 ^ (8 * j) % 256 = denData s k (o k / 8 * 8) / 2 ^ (8 * j) % 256
    stores (.st8 t d mo) 1 ∧ stores (.st16 t d mo) 2 ∧ stores (.st32 t d mo) 4 ∧ stores (.st64 t d mo) 8

/-- R250: PUSH moves G15 down by 8 and stores the value that Gt had before, there; POP loads the word at G15 and moves G15 up by 8, except that POP
G15 leaves the loaded value. Here the data stack lies in the core's own Den. -/
def Sys2Proof.Claims.PushAndPopMoveG15 : Prop :=
  ∀ (s : State) (t : Tgt) (d : Reg) (o : Nat → Nat), takes s t →
    ((∀ k ∈ s.chip.coresOf t, let x := s.chip.core k
        windowTakes s t k 1 ∧ (x.g 15).toNat = ownDen t + o k ∧ o k % 8 = 0 ∧ 8 ≤ o k ∧ o k ≤ 0x8000
          ∧ ∀ cl, tgtCluster t = some cl → (s.chip.clu cl).resync = none) →
      answers (.push t d) s fun u => coresAndMem s u t ∧ densOnly s u t (fun k => o k - 8) o
        ∧ ∀ k ∈ s.chip.coresOf t, let x := s.chip.core k
          let y := u.chip.core k
          wentOn x y ∧ setsReg 15 (x.g 15 - 8#64) x.bank.flags x y ∧ denData u k (o k - 8) = (x.g d).toNat)
    ∧ ((∀ k ∈ s.chip.coresOf t, let x := s.chip.core k
        (x.g 15).toNat = ownDen t + o k ∧ o k % 8 = 0 ∧ o k + 8 ≤ 0x8000 ∧ denClean s k (o k)) →
      wordDoesAt (.pop t d) t s fun k x y =>
        y.g d = BitVec.ofNat 64 (denData s k (o k)) ∧ (d ≠ 15 → y.g 15 = x.g 15 + 8#64)
          ∧ (∀ r, r ≠ d → r ≠ 15 → y.g r = x.g r) ∧ y.bank.flags = x.bank.flags ∧ y.v = x.v)

/-- R239, R240, R271, R297: a store outside the own Den that passes its checks waits in the window store buffer with its address, size, low bytes and
privilege, counts as one store of the window, and changes no stored word. R242: a store to the core's own Den is performed at once, in each core's own
copy: the bytes stored take the low bytes of Gt, the word's other bytes stay, and so does every byte of the stored words elsewhere. R250: PUSH moves
G15 down by 8 and stores the value that Gt had before, there; POP loads the word at G15 and moves G15 up by 8, except that POP G15 leaves the loaded
value. Here the data stack lies in the core's own Den. -/
def Obligations.StoresPushAndPopReachTheirPlace : Prop := StoresWaitInTheWindowBuffer ∧ OwnDenStoresArePerformedAtOnce ∧ PushAndPopMoveG15

/-- R244, R245: DINV drops the data-cache line that holds the address, DINVA every line, IFLUSH the fetch queue and the instruction cache once every store
has been acknowledged; no register moves, and no stored word. -/
def Obligations.CacheWordsDropLines : Prop :=
  ∀ (s : State) (t : Tgt) (a : Reg) (imm : BitVec 16),
    ((∀ k ∈ s.chip.coresOf t, memSum (s.chip.core k) (.based a imm) < 2 ^ 48) →
      wordDoes (.dinv t a imm) t s fun x y => sameRegs x y
        ∧ y.dcache = mdel x.dcache (memSum x (.based a imm) / 64 * 64))
    ∧ wordDoes (.dinva t) t s (fun x y => sameRegs x y ∧ y.dcache = [])
    ∧ ((∀ k ∈ s.chip.coresOf t, (s.chip.core k).mustDrain (envOfCore s t k) = false ∧ (s.chip.core k).winFresh = true) →
      wordDoes (.iflush t) t s fun x y => sameRegs x y ∧ y.icache = [] ∧ y.fetchq = [])

/-- R283, R284: STM stores each register of the mask, in ascending order, at Ga + 8j, and LDM loads the same layout, Ga last. Here the area lies
in the core's own Den. -/
def Obligations.BlockSaveAndRestoreByMask : Prop :=
  ∀ (s : State) (n : Fin 48) (a : Reg) (mask : BitVec 16) (o : Nat → Nat),
    let t := Tgt.fox n
    let below := fun r : Reg => (List.range r.val).countP fun i => mask.getLsbD i
    takes s t → (s.chip.clu n.val).resync = none →
    (∀ k ∈ s.chip.coresOf t, let x := s.chip.core k
      (x.g a).toNat = ownDen t + o k ∧ o k % 8 = 0 ∧ o k + 0x80 ≤ 0x8000 ∧ x.stm = none) →
    ((∀ k ∈ s.chip.coresOf t, windowTakes s t k 16) →
      answers (.stm t a mask) s fun u => coresAndMem s u t ∧ densOnly s u t o (fun k => o k + 0x80)
        ∧ ∀ k ∈ s.chip.coresOf t, let x := s.chip.core k
          let y := u.chip.core k
          wentOn x y ∧ sameRegs x y ∧ ∀ r : Reg, mask.getLsbD r.val = true → denData u k (o k + 8 * below r) = (x.g r).toNat)
    ∧ ((∀ k ∈ s.chip.coresOf t, ∀ i < 16, denClean s k (o k + 8 * i)) →
      wordDoesAt (.ldm t a mask) t s fun k x y =>
        ∀ r : Reg, y.g r = if mask.getLsbD r.val then BitVec.ofNat 64 (denData s k (o k + 8 * below r)) else x.g r)

/-- The twelve words of a save area (Table 10.5): the link, the header, eight registers, and the four bank registers two to a word. -/
def Sys2Proof.Claims.areaWords (x : Core) (h : Fin 2) : List Nat :=
  let b := fun (i : Nat) => (x.bN (4 * h.val + i)).toNat
  [x.saveHead % 2 ^ 64, h.val + x.key * 16 + (if h = 1 then flagsNat x.bank.flags * 256 else 0)]
    ++ (List.range 8).map (fun i => (x.gN (8 * h.val + i)).toNat) ++ [b 0 + b 1 * 2 ^ 32, b 2 + b 3 * 2 ^ 32]

/-- R286, R257, Table 10.5: SAVEH completes wherever its area is aligned and may be stored to: the twelve words go to the core's own Den at once, and
to any other place through the store buffer; SAVEHEAD points at the area and the window counts one store. LOADH completes wherever the twelve words
load and the header names the half and the context: it restores the half and follows the link. -/
def Sys2Proof.Claims.SaveAndLoadOfAHalfComplete : Prop :=
  ∀ (s : State) (a : Reg) (h : Fin 2), takes s .badger → let t := Tgt.badger
    ((∀ k ∈ s.chip.coresOf t, let x := s.chip.core k
        let g := (x.g a).toNat
        g < 2 ^ 48 ∧ g % 128 = 0 ∧ (∀ i < 12, preExc (envOfCore s t k) x (g + 8 * i) 8 true = none)
          ∧ windowTakes s t k 1 ∧ x.buffered + 12 ≤ 64) →
      answers (.saveh t a h) s fun u => coresAndMem s u t
        ∧ densBut s u t (fun k o => ∃ i < 12, ownDen t + o = ((s.chip.core k).g a).toNat + 8 * i)
        ∧ ∀ k ∈ s.chip.coresOf t, let x := s.chip.core k
          let y := u.chip.core k
          let g := (x.g a).toNat
          wentOn x y ∧ sameRegs x y ∧ y.saveHead = g ∧ y.win.stores = x.win.stores + 1
            ∧ (∀ o < 0x10000, g = ownDen t + o → y.win.buf = x.win.buf ∧ ∀ i < 12, denData u k (o + 8 * i) = (areaWords x h).getD i 0)
            ∧ ((envOfCore s t k).denOff g = none → u.mem = s.mem ∧ y.win.buf = x.win.buf
                ++ (List.range 12).map fun i => ⟨g + 8 * i, 8, (areaWords x h).getD i 0, x.sup, none⟩))
    ∧ ∀ (hd : Nat → Nat) (ws : Nat → List Word),
      (∃ q r : List Request, ∀ k ∈ s.chip.coresOf t, let x := s.chip.core k
        let e := envOfCore s t k
        let g := x.saveHead
        (∀ i < 12, preExc e x (g + 8 * i) 8 false = none) ∧ hd k % 2 = h.val ∧ hd k / 16 % 16 = x.key
          ∧ ∃ c1 c2, loadBytes e (fetched s t k) s.mem (g + 8) 8 true = .value (hd k) c1 (q.map Eff.request)
            ∧ saveLoads e { fetched s t k with dcache := c1 } s.mem ([0, 2, 3, 4, 5, 6, 7, 8, 9, 10, 11].map fun i => g + 8 * i) [] []
                = (.value 0 c2 (r.map Eff.request), ws k)) →
      wordDoesAt (.loadh t h) t s fun k x y =>
        let w := fun (i : Nat) => (ws k).getD i 0#64
        y.saveHead = (w 0).toNat % 2 ^ 48 / 128 * 128
          ∧ (∀ i < 8, y.gN (8 * h.val + i) = w (1 + i)) ∧ (∀ i < 8, y.gN (8 * (1 - h.val) + i) = x.gN (8 * (1 - h.val) + i))
          ∧ (∀ i < 4, (y.bN (4 * h.val + i)).toNat = (w (9 + i / 2)).toNat / 2 ^ (32 * (i % 2)) % 2 ^ 32)
          ∧ (∀ i < 4, y.bN (4 * (1 - h.val) + i) = x.bN (4 * (1 - h.val) + i))
          ∧ flagsNat y.bank.flags = (if h = 1 then hd k / 256 % 16 else flagsNat x.bank.flags)

/-- R286, Table 10.5: SAVEH writes a half of the context to the save area at Ga and points SAVEHEAD at it; LOADH restores the half from the area
at SAVEHEAD and follows the link. The chain of areas is newest first. Here the areas lie in the core's own Den. -/
def Sys2Proof.Claims.SaveAreasInTheDen : Prop :=
  ∀ (s : State) (a : Reg) (h : Fin 2) (o : Nat → Nat), takes s .badger →
    ((∀ k ∈ s.chip.coresOf .badger, let x := s.chip.core k
        windowTakes s .badger k 1 ∧ x.buffered + 12 ≤ 64 ∧ (x.g a).toNat = ownDen .badger + o k ∧ o k % 128 = 0 ∧ o k + 0x60 ≤ 0x8000) →
      answers (.saveh .badger a h) s fun u => coresAndMem s u .badger ∧ densOnly s u .badger o (fun k => o k + 0x60)
        ∧ ∀ k ∈ s.chip.coresOf .badger, let x := s.chip.core k
          let y := u.chip.core k
          wentOn x y ∧ sameRegs x y ∧ y.saveHead = (x.g a).toNat ∧ denData u k (o k) = x.saveHead % 2 ^ 64
            ∧ ∀ i < 8, denData u k (o k + 0x10 + 8 * i) = (x.gN (8 * h.val + i)).toNat)
    ∧ ((∀ k ∈ s.chip.coresOf .badger, let x := s.chip.core k
        x.saveHead = ownDen .badger + o k ∧ o k % 128 = 0 ∧ o k + 0x60 ≤ 0x8000 ∧ (∀ i < 12, denClean s k (o k + 8 * i))
          ∧ denData s k (o k + 8) % 2 = h.val ∧ denData s k (o k + 8) / 16 % 16 = x.key) →
      wordDoesAt (.loadh .badger h) .badger s fun k x y =>
        y.saveHead = denData s k (o k) % 2 ^ 48 / 128 * 128
          ∧ (∀ i < 8, y.gN (8 * h.val + i) = BitVec.ofNat 64 (denData s k (o k + 0x10 + 8 * i)))
          ∧ (∀ i < 8, y.gN (8 * (1 - h.val) + i) = x.gN (8 * (1 - h.val) + i))
          ∧ (∀ i < 4, (y.bN (4 * h.val + i)).toNat = denData s k (o k + 0x50 + 8 * (i / 2)) / 2 ^ (32 * (i % 2)) % 2 ^ 32))

/-- R286, R257, Table 10.5: SAVEH and LOADH complete for every area that may be stored to and loaded; SAVEH writes a half of the context to the save area
at Ga and points SAVEHEAD at it, as one store of the window; LOADH restores the half from the area at SAVEHEAD and follows the link. The chain of
areas is newest first. -/
def Obligations.BadgerSaveAreasFormAList : Prop := SaveAndLoadOfAHalfComplete ∧ SaveAreasInTheDen

/-- R233, R256: VLD loads a group from memory and VST stores it, low register and low byte first; VALU works on whole groups, each 64-bit word by itself;
VINS and VEXT move word j of a group; no flag moves. The memory here is the core's own Den. -/
def Sys2Proof.Claims.ShortVectorWordsActOnGroups : Prop :=
  ∀ (s : State) (n : Fin 48) (a d : Reg) (q : Fin 4) (o : Nat → Nat),
    let t := Tgt.fox n
    let quad : Reg := ⟨4 * q.val, by omega⟩
    let lane := fun (x : Core) (j : Nat) => x.vget (4 * q.val + j / 2) / 2 ^ (64 * (j % 2)) % 2 ^ 64
    takes s t →
    ((∀ k ∈ s.chip.coresOf t, ((s.chip.core k).g a).toNat = ownDen t + o k ∧ o k % 16 = 0 ∧ o k + 64 ≤ 0x8000) →
      ((∀ k ∈ s.chip.coresOf t, ∀ i < 8, denClean s k (o k + 8 * i)) →
        wordDoesAt (.vld t quad a 2 0) t s fun k x y =>
          (∀ j < 8, lane y j = denData s k (o k + 8 * j)) ∧ y.bank = x.bank
            ∧ ∀ r, (r < 4 * q.val ∨ 4 * q.val + 4 ≤ r) → r < 16 → y.vget r = x.vget r)
      ∧ ((s.chip.clu n.val).resync = none → (∀ k ∈ s.chip.coresOf t, windowTakes s t k 4) →
        answers (.vst t quad a 2 0) s fun u => coresAndMem s u t ∧ densOnly s u t o (fun k => o k + 64)
          ∧ ∀ k ∈ s.chip.coresOf t, let x := s.chip.core k
            let y := u.chip.core k
            wentOn x y ∧ sameRegs x y ∧ y.win.stores = x.win.stores + 4 ∧ ∀ j < 8, denData u k (o k + 8 * j) = lane x j))
    ∧ (∀ f : BitVec 4, f.toNat < 7 → wordDoes (.valu t quad quad quad 2 f) t s fun x y => y.bank = x.bank
        ∧ ∀ j < 8, lane y j = [lane x j, 0, 2 * lane x j % 2 ^ 64, 0, lane x j, lane x j, 0].getD f.toNat 0)
    ∧ (∀ j : BitVec 3, wordDoes (.vins t quad 2 j a) t s fun x y => y.bank = x.bank
        ∧ ∀ i < 8, lane y i = if i = j.toNat then (x.g a).toNat else lane x i)
    ∧ (∀ j : BitVec 3, wordDoes (.vext t d quad 2 j) t s fun x y =>
        setsReg d (BitVec.ofNat 64 (lane x j.toNat)) x.bank.flags x y)

/-- R233, R241, R256, R257: every short-vector word completes for each group size and every first register that is a multiple of it. VLD takes
the words that its one access delivers; VST makes one store for each register, in the core's own Den at once and elsewhere in the store buffer;
VALU computes 64-bit word by 64-bit word from both groups before it writes the third; VINS and VEXT move one word. Nothing else moves. -/
def Sys2Proof.Claims.VectorWordsCompleteOnEveryGroup : Prop :=
  ∀ (s : State) (n : Fin 48) (v va vb a d : Reg) (sz : BitVec 2) (disp : BitVec 14) (f : BitVec 4) (j : BitVec 3),
    let t := Tgt.fox n
    let m := 2 ^ sz.toNat
    let word := fun (x : Core) (r : Reg) (i : Nat) => x.vget (r.val + i / 2) / 2 ^ (64 * (i % 2)) % 2 ^ 64
    let legal := fun (r : Reg) => r.val % m = 0
    let addr := fun (x : Core) => ((x.g a).toNat + (disp.signExtend 64).toNat * 16) % 2 ^ 64
    let rest := fun (r : Reg) (x y : Core) => y.bank = x.bank ∧ ∀ q < 16, (q < r.val ∨ r.val + m ≤ q) → y.vget q = x.vget q
    let reached := fun (x : Core) (e : Env) (w : Bool) => addr x < 2 ^ 48 ∧ ∀ i < 2 * m, privExc e x (addr x + 8 * i) 8 w = none
    sz ≠ 3#2 →
    (legal v → ∀ ws : Nat → List Nat, (∃ q : List Request, ∀ k ∈ s.chip.coresOf t, let x := s.chip.core k
        let e := envOfCore s t k
        reached x e false ∧ addr x % 16 = 0
          ∧ ∃ c, loadGroup e (fetched s t k) s.mem (addr x) m = (.value 0 c (q.map Eff.request), ws k)) → takes s t →
      wordDoesAt (.vld t v a sz disp) t s fun k x y => rest v x y ∧ ∀ i < 2 * m, word y v i = (ws k).getD i 0)
    ∧ (legal v → (s.chip.clu n.val).resync = none → (∀ k ∈ s.chip.coresOf t, let x := s.chip.core k
        let e := envOfCore s t k
        reached x e true ∧ addr x % 16 = 0 ∧ (∀ i < m, preExc e x (addr x + 16 * i) 16 true = none) ∧ windowTakes s t k m) → takes s t →
      answers (.vst t v a sz disp) s fun u => coresAndMem s u t
        ∧ densBut s u t (fun k o => o < 0x20000 ∧ ∃ i < 2 * m, ownDen t + o = addr (s.chip.core k) + 8 * i)
        ∧ ∀ k ∈ s.chip.coresOf t, let x := s.chip.core k
          let y := u.chip.core k
          let e := envOfCore s t k
          wentOn x y ∧ sameRegs x y ∧ y.win.stores = x.win.stores + m
            ∧ (∀ i < 2 * m, ∀ o < 0x20000, addr x + 8 * i = ownDen t + o → denData u k o = word x v i)
            ∧ y.win.buf = x.win.buf ++ ((List.range m).filter fun i => (e.denOff (addr x + 16 * i)).isNone).map fun i =>
                ⟨addr x + 16 * i, 16, x.vget (v.val + i), x.sup, e.job⟩)
    ∧ (legal v → legal va → legal vb → f.toNat < 7 → wordDoes (.valu t v va vb sz f) t s fun x y => rest v x y ∧ ∀ i < 2 * m,
        let p := word x va i
        let q := word x vb i
        word y v i = [p, 0, (p + q) % 2 ^ 64, (p + 2 ^ 64 - q) % 2 ^ 64, Nat.land p q, Nat.lor p q, Nat.xor p q].getD f.toNat 0)
    ∧ (legal v → j.toNat < 2 * m → wordDoes (.vins t v sz j a) t s fun x y => rest v x y ∧ ∀ i < 2 * m,
        word y v i = if i = j.toNat then (x.g a).toNat else word x v i)
    ∧ (legal v → j.toNat < 2 * m → wordDoes (.vext t d v sz j) t s fun x y =>
        setsReg d (BitVec.ofNat 64 (word x v j.toNat)) x.bank.flags x y)
    ∧ ((∀ k ∈ s.chip.coresOf t, reached (s.chip.core k) (envOfCore s t k) false ∧ addr (s.chip.core k) % 16 ≠ 0) → legal v →
        wordEnters (.vld t v a sz disp) t s 0x06 addr fun x => x.pc)
    ∧ ((∀ k ∈ s.chip.coresOf t, reached (s.chip.core k) (envOfCore s t k) true ∧ addr (s.chip.core k) % 16 ≠ 0) → legal v →
        wordEnters (.vst t v a sz disp) t s 0x06 addr fun x => x.pc)

/-- R233, R256: a first register that is not a multiple of its group, the size code 0b11, a function above 0x6 and a word beyond the group are illegal. -/
def Sys2Proof.Claims.BadVectorGroupsAreIllegal : Prop :=
  ∀ (s : State) (n : Fin 48) (v va vb a : Reg) (sz : BitVec 2) (disp : BitVec 14) (f : BitVec 4) (j : BitVec 3),
    let t := Tgt.fox n
    let bad := fun i : Instr => wordEnters i t s 0x01 (fun _ => 0) fun x => x.pc
    let wrong := fun r : Reg => sz = 3#2 ∨ r.val % 2 ^ sz.toNat ≠ 0
    (wrong v → bad (.vld t v a sz disp) ∧ bad (.vst t v a sz disp) ∧ bad (.vins t v sz j a) ∧ bad (.vext t a v sz j))
    ∧ (wrong v ∨ wrong va ∨ wrong vb ∨ 6 < f.toNat → bad (.valu t v va vb sz f))
    ∧ (2 * 2 ^ sz.toNat ≤ j.toNat → bad (.vins t v sz j a) ∧ bad (.vext t a v sz j))
    ∧ bad (.vext t a v 3 j) ∧ (v.val % 2 ≠ 0 → bad (.vins t v 1 j a)) ∧ (v.val % 4 ≠ 0 → bad (.valu t v v v 2 f))
    ∧ (6 < f.toNat → bad (.valu t v v v 0 f)) ∧ (2 ≤ j.toNat → bad (.vext t a v 0 j))

/-- R233, R256: VLD loads a group from memory and VST stores it, low register and low byte first; VALU works on whole groups, each 64-bit word by
itself; VINS and VEXT move word j of a group; no flag moves. The first statement says so of the core's own Den, the second of every group size and
every place. R233, R256: a first register that is not a multiple of its group, the size code 0b11, a function above 0x6 and a word beyond the group are
illegal. -/
def Obligations.VectorWordsActOnAlignedGroups : Prop :=
  ShortVectorWordsActOnGroups ∧ VectorWordsCompleteOnEveryGroup ∧ BadVectorGroupsAreIllegal

/-- R234, R235, Tables 9.2 and 9.4: what MFS reads of the registers that every mode may read: FLAGS, RSP, CYCLE, RETIRED and COREID, the same on every
core of the target but for its own counts. -/
def Sys2Proof.Claims.SpecialRegistersRead : Prop :=
  ∀ (s : State) (t : Tgt) (d : Reg),
    let reads := fun (sp : BitVec 12) (v : Core → Word) =>
      wordDoes (.mfs t d sp) t s fun x y => setsReg d (v x) x.bank.flags x y
    reads 0x000 (fun x => BitVec.ofNat 64 (flagsNat x.bank.flags))
    ∧ reads 0x002 (fun x => BitVec.ofNat 64 x.rsp)
    ∧ reads 0x003 (fun _ => BitVec.ofNat 64 (match t with | .fox n => s.chip.cluCycle n.val | .badger => s.chip.hubEdges))
    ∧ reads 0x004 (fun x => BitVec.ofNat 64 x.retired)
    ∧ reads 0x006 (fun _ => BitVec.ofNat 64 (match t with | .fox n => n.val / 12 * 4096 + n.val % 12 * 256 | .badger => 0xE000))
    ∧ ((∀ k ∈ s.chip.coresOf t, (s.chip.core k).sup = true) →
        reads 0x010 (fun x => BitVec.ofNat 64 x.evbase) ∧ reads 0x012 (fun x => x.eaddr)
        ∧ reads 0x017 (fun x => BitVec.ofNat 64 x.escbase))

/-- R234: MTS to FLAGS writes bits [3:0]; to a read-only register nothing; EVBASE takes bits [47:8]; no general register moves. -/
def Sys2Proof.Claims.SpecialRegistersWritten : Prop :=
  ∀ (s : State) (t : Tgt) (a : Reg),
    wordDoes (.mts t 0x000 a) t s (fun x y =>
      (∀ r, y.g r = x.g r) ∧ y.bank.b = x.bank.b ∧ y.v = x.v ∧ flagsNat y.bank.flags = (x.g a).toNat % 16)
    ∧ wordDoes (.mts t 0x003 a) t s sameRegs
    ∧ ((∀ k ∈ s.chip.coresOf t, (s.chip.core k).sup = true) → takes s t →
        answers (.mts t 0x010 a) s fun u => coresOnly s u t ∧ ∀ k ∈ s.chip.coresOf t, let x := s.chip.core k
          let y := u.chip.core k
          y.evbase = (x.g a).toNat % 2 ^ 48 / 256 * 256 ∧ sameRegs x y ∧ y.pc = (x.pc + 4) % 2 ^ 48 ∧ y.retired = x.retired + 1)

/-- R234, R235, Tables 9.2 and 9.4: what MFS reads of the registers that every mode may read: FLAGS, RSP, CYCLE, RETIRED and COREID, the same on every
core of the target but for its own counts. R234: MTS to FLAGS writes bits [3:0]; to a read-only register nothing; EVBASE takes bits [47:8]; no general
register moves. -/
def Obligations.SpecialRegistersReadAndWritten : Prop := SpecialRegistersRead ∧ SpecialRegistersWritten

/-- R275, R278: MTS RSP takes a multiple of 8 within the context's return stack and empties the shadow stack, and any other value raises the
address exception; MTS CTXCTL creates a context with all registers 0 and RSP at top, or ends one that is neither current nor named in EREC. -/
def Sys2Proof.Claims.ReturnStackPointerAndContexts : Prop :=
  ∀ (s : State) (t : Tgt) (a : Reg) (id : Nat), (∀ k ∈ s.chip.coresOf t, (s.chip.core k).sup = true) →
    let v := fun x : Core => (x.g a).toNat
    let all := fun p : Core → Prop => ∀ k ∈ s.chip.coresOf t, p (s.chip.core k)
    (all (fun x => v x % 8 = 0 ∧ x.stackBase ≤ v x ∧ v x ≤ x.stackBase + 0x800) → takes s t →
      answers (.mtsRsp t a) s fun u => coresOnly s u t ∧ ∀ k ∈ s.chip.coresOf t, let x := s.chip.core k
        let y := u.chip.core k
        y.rsp = v x ∧ y.shadow = [] ∧ (∀ r, y.g r = x.g r) ∧ y.bank.flags = x.bank.flags ∧ y.retired = x.retired + 1)
    ∧ (all (fun x => v x % 8 ≠ 0 ∨ v x < x.stackBase ∨ x.stackBase + 0x800 < v x) →
        wordEnters (.mtsRsp t a) t s 0x04 v fun x => x.pc)
    ∧ ((∀ k ∈ s.chip.coresOf t, id < (envOfCore s t k).nctx ∧ id ≠ (s.chip.core k).cur ∧ v (s.chip.core k) = 0x100 + id) →
        takes s t → answers (.ctxCreate t a) s fun u => coresOnly s u t ∧ ∀ k ∈ s.chip.coresOf t, let x := s.chip.core k
          let y := u.chip.core k
          y.live.contains id = true ∧ (y.bankOf id).g = Vector.replicate 16 0#64 ∧ (y.bankOf id).rsp = 0x8000 + id * 0x800 + 0x800
            ∧ (y.bankOf id).shadow = [] ∧ y.bank = x.bank ∧ y.cur = x.cur ∧ y.retired = x.retired + 1)
    ∧ ((∀ k ∈ s.chip.coresOf t, id < (envOfCore s t k).nctx ∧ id ≠ (s.chip.core k).cur ∧ v (s.chip.core k) = 0x200 + id
          ∧ ∀ r ∈ (s.chip.core k).erec, r.ctx ≠ id) →
        takes s t → answers (.ctxDestroy t a) s fun u => coresOnly s u t ∧ ∀ k ∈ s.chip.coresOf t, let x := s.chip.core k
          let y := u.chip.core k
          y.live = x.live.filter (· != id) ∧ y.bank = x.bank ∧ y.cur = x.cur ∧ y.retired = x.retired + 1)

/-- R279, R280, Table 10.1: a doorbell makes cause 0x11 pending on every core of its target that runs; a background spill leaves its context without a bank; a
load makes its context resident and current. Nothing else of the module moves. -/
def Sys2Proof.Claims.BackgroundContextTrafficEnds : Prop :=
  ∀ (s : State) (t : Tgt), let only := fun u : State => u.mem = s.mem ∧ u.pending = s.pending
        ∧ u.chip = { s.chip with cores := u.chip.cores } ∧ ∀ k, k ∉ s.chip.coresOf t → u.chip.core k = s.chip.core k
    (answers (.doorbell t) s fun u => only u ∧ ∀ k ∈ s.chip.coresOf t, let x := s.chip.core k
      u.chip.core k = if x.alive then { x with irq := x.irq ++ [(0x11, 0#64)] } else x)
    ∧ (answers (.contextSpillDone t) s fun u => only u ∧ ∀ k ∈ s.chip.coresOf t, ∀ j, (s.chip.core k).spill = some ⟨j, false⟩ →
      let x := s.chip.core k
      let y := u.chip.core k
      y.resident = x.resident.filter (· != j) ∧ y.banks = x.banks ∧ y.live = x.live ∧ y.pc = x.pc
        ∧ y.spill = x.pendCur.map fun i => ⟨i, true⟩)
    ∧ (answers (.contextLoadDone t) s fun u => only u ∧ ∀ k ∈ s.chip.coresOf t, ∀ j,
      (s.chip.core k).spill = some ⟨j, true⟩ → (s.chip.core k).pendCur = some j →
      let x := s.chip.core k
      let y := u.chip.core k
      y.cur = j ∧ y.resident.contains j = true ∧ y.pendCur = none ∧ y.exc = false ∧ y.run = .executing ∧ y.banks = x.banks)

/-- R275, R278: MTS RSP takes a multiple of 8 within the context's return stack and empties the shadow stack, and any other value raises the address
exception; MTS CTXCTL creates a context with all registers 0 and RSP at top, or ends one that is neither current nor named in EREC. R279, R280, Table
10.1: a doorbell makes cause 0x11 pending on every core of its target that runs; a background spill leaves its context without a bank; a load makes
its context resident and current. Nothing else of the module moves. -/
def Obligations.ContextsReturnStackAndTraffic : Prop := ReturnStackPointerAndContexts ∧ BackgroundContextTrafficEnds

/-! ## Redundancy (chapter 11) -/

/-- R318: the heartbeat comparison that follows every 4,096th decision of a cluster reports what it shall. -/
def Sys2Proof.Claims.beatPasses (s : State) (n : Fin 48) (beat : Option Word) : Prop :=
  s.chip.fld (R.OWL_STAT n.val) F.OWL_STAT_HB_PHASE = 4095 → beatOk (s.chip.clu n.val).owlHb beat = true

/-- R297, R298, R318: when every member's closed window agrees, no injection is armed and a heartbeat that follows passes, the stores of each are
released in program order, the descriptor goes to the issue unit, and one more decision is counted; no stored word moves. -/
def Sys2Proof.Claims.OwlReleasesAgreeingWindows : Prop :=
  ∀ (s : State) (n : Fin 48) (beat : Option Word), let ks := s.chip.members n.val
    let cs := fun k => s.chip.core (3 * n.val + k)
    ks ≠ [] → s.chip.fld (R.OWL_INJ n.val) F.OWL_INJ_ARMED = 0 → beatPasses s n beat →
    (∃ d, ∀ k ∈ ks, (cs k).closed.isSome = true ∧ (cs k).decided 0 = d) →
    answers (.owlDecision (.fox n) [] ⟨false, beat⟩) s fun u => u.mem = s.mem ∧ u.pending = s.pending
      ∧ (∀ k ∈ ks, ∀ w, (cs k).closed = some w →
          let y := u.chip.core (3 * n.val + k)
          y.closed = none ∧ y.released = (cs k).released ++ w.win.buf
            ∧ y.issue = (match w.win.desc with | some d => some d | none => (cs k).issue)
            ∧ y.pc = (cs k).pc ∧ y.banks = (cs k).banks)
      ∧ u.chip.fld (R.OWL_STAT n.val) F.OWL_STAT_HB_PHASE = (s.chip.fld (R.OWL_STAT n.val) F.OWL_STAT_HB_PHASE + 1) % 4096
      ∧ ∀ a, a ≠ R.OWL_STAT n.val → u.chip.reg a = s.chip.reg a

/-- R298, R300 step 1: in TMR one core that differs from two equal ones is outvoted: the two release their windows; the odd core drops its own
and is held, and a resynchronisation of it begins, unless it would be the third within 10^9 cycles. -/
def Sys2Proof.Claims.OwlOutvotesTheOddCore : Prop :=
  ∀ (s : State) (n : Fin 48) (i j : Fin 3) (beat : Option Word), let cs := fun k : Nat => s.chip.core (3 * n.val + k)
    beatPasses s n beat → s.chip.members n.val = [0, 1, 2] → s.chip.fld (R.OWL_INJ n.val) F.OWL_INJ_ARMED = 0 → s.chip.faults.halted = false →
    i ≠ j → s.chip.thirdResync n.val j.val = false → (s.chip.clu n.val).resync = none →
    (∀ k < 3, (cs k).closed.isSome = true) → (∀ k : Fin 3, k ≠ j → (cs k.val).decided 0 = (cs i.val).decided 0) →
    (cs j.val).decided 0 ≠ (cs i.val).decided 0 →
    answers (.owlDecision (.fox n) [] ⟨false, beat⟩) s fun u => u.mem = s.mem ∧ u.pending = s.pending
      ∧ (∀ k : Fin 3, k ≠ j → ∀ w, (cs k.val).closed = some w →
          (u.chip.core (3 * n.val + k.val)).closed = none
            ∧ (u.chip.core (3 * n.val + k.val)).released = (cs k.val).released ++ w.win.buf)
      ∧ (u.chip.core (3 * n.val + j.val)).run = .held ∧ (u.chip.core (3 * n.val + j.val)).released = []
      ∧ (∃ r, (u.chip.clu n.val).resync = some r ∧ r.odd = j.val ∧ r.donor ≠ j.val ∧ r.donor < 3 ∧ r.copied = false)
      ∧ u.chip.fld (R.OWL_STAT n.val) F.OWL_STAT_RESYNC_BUSY = 1 ∧ u.chip.fld (R.OWL_CORE n.val j.val) F.OWL_CORE_ROLE = 3

/-- R293: requests that agree change nothing. -/
def Sys2Proof.Claims.AgreeingRequestsChangeNothing : Prop :=
  ∀ (s : State) (n : Fin 48) (r : Request) (reqs : List (Fin 3 × Request)),
    s.chip.members n.val ≠ [] → s.chip.fld (R.OWL_INJ n.val) F.OWL_INJ_ARMED = 0 →
    (∀ k ∈ s.chip.members n.val, reqOf reqs k none = some r) →
    exec (.requestCompare (.fox n) reqs) s = .next s

/-- R297, R298, R318: when every member's closed window agrees and no injection is armed, the stores of each are released in program order, the
descriptor goes to the issue unit, and one more decision is counted; no stored word moves. R293: requests that agree change nothing. -/
def Obligations.AgreeingWindowsAndRequestsPass : Prop := OwlReleasesAgreeingWindows ∧ AgreeingRequestsChangeNothing

/-- R300, R301: the Den copy gives the odd core every word of the donor's Den and leaves every other stored word; at the boundary, the odd core takes the
donor's state, every core's caches are emptied, and the cluster runs in TMR again. -/
def Sys2Proof.Claims.ResyncCopiesTheDonor : Prop :=
  ∀ (s : State) (n : Fin 48) (r : Resync), (s.chip.clu n.val).resync = some r → r.odd < 3 → r.donor < 3 → r.odd ≠ r.donor →
    let den := fun k => denBase (3 * n.val + k)
    (r.copied = false → Memory.wf s.mem = true → answers (.denCopyDone n) s fun u => u.pending = s.pending
      ∧ (∃ q, (u.chip.clu n.val).resync = some q ∧ q.odd = r.odd ∧ q.donor = r.donor ∧ q.copied = true)
      ∧ (∀ o < 0x20000, memGet? u.mem (den r.odd + o) = memGet? s.mem (den r.donor + o))
      ∧ (∀ i < 0x4000, memGet? u.mem (chkKey (den r.odd) + i) = memGet? s.mem (chkKey (den r.donor) + i))
      ∧ ∀ a, inDen (3 * n.val + r.odd) a = false → memGet? u.mem a = memGet? s.mem a)
    ∧ (r.copied = true → r.atBoundary = true → (∀ k ∈ s.chip.members n.val, (s.chip.core (3 * n.val + k)).released = []) →
      answers (.rejoin n) s fun u => u.mem = s.mem ∧ u.pending = s.pending
        ∧ (let x := s.chip.core (3 * n.val + r.donor)
           u.chip.core (3 * n.val + r.odd) = { x with dcache := [], icache := [], fetchq := [] }
            ∧ u.chip.core (3 * n.val + r.donor) = { x with dcache := [], icache := [], fetchq := [] })
        ∧ (u.chip.clu n.val).resync = none ∧ u.chip.fld (R.OWL_CORE n.val r.odd) F.OWL_CORE_ROLE = 0
        ∧ u.chip.fld (R.OWL_STAT n.val) F.OWL_STAT_CONFIG = 1 ∧ u.chip.fld (R.OWL_STAT n.val) F.OWL_STAT_RESYNC_BUSY = 0)

/-- R298, R300 step 1: in TMR one core that differs from two equal ones is outvoted: the two release their windows; the odd core drops its own and is
held, and a resynchronisation of it begins, unless it would be the third within 10^9 cycles. R300, R301: the Den copy gives the odd core every word of
the donor's Den and leaves every other stored word; at the boundary, the odd core takes the donor's state, every core's caches are emptied, and the
cluster runs in TMR again. -/
def Obligations.OwlOutvotesAndResynchronises : Prop := OwlOutvotesTheOddCore ∧ ResyncCopiesTheDonor

/-- R305, R306: a self-test that every unfenced core passes leaves the cluster waiting for its restart, and counts the stop when it counts; the
restart runs the cluster again with its Dens as the executive writes them (R334; the words themselves are open), its issue slots empty. -/
def Obligations.StoppedClusterTestsAndRestarts : Prop :=
  ∀ (s : State) (n : Fin 48), let x := s.chip.clu n.val
    (x.stop = .selfTest → s.chip.cluFenced n.val = false → s.chip.faults.halted = false → recentCount x.stopAt x.stopHist < 2 →
      answers (.coreSelftestDone n []) s fun u => u.mem = s.mem ∧ u.pending = s.pending ∧ (u.chip.clu n.val).stop = .awaitRestart
        ∧ (u.chip.clu n.val).stopHist = (if x.stopCounted then histAdd x.stopHist x.stopAt else x.stopHist)
        ∧ u.chip.regs = s.chip.regs ∧ u.chip.cores = s.chip.cores)
    ∧ (x.stop = .awaitRestart → s.chip.badger.restarting = false → answers (.executiveRestart n) s fun u =>
        u.pending = s.pending ∧ (u.chip.clu n.val).stop = .running ∧ (u.chip.clu n.val).job = none
        ∧ (∀ k < 3, ∀ i < 0x4000, denData u (3 * n.val + k) (8 * i) = (Config.denImage (3 * n.val + k) i).toNat
            ∧ denClean u (3 * n.val + k) (8 * i))
        ∧ ∀ a, (∀ k < 3, inDen (3 * n.val + k) a = false) → memGet? u.mem a = memGet? s.mem a)

/-- R271, R297: the oldest released store of a triad or pair, on which the members agree, is performed once, here a whole word of scratch, and
every member drops it. R193, R268, R288: a store whose pieces are not delivered leaves the stored words, and each piece, one for each 256-byte line,
is pending as a cause 0x0A of its own with its address. -/
def Obligations.ReleasedStoresArePerformedInOrder : Prop :=
  ∀ (s : State) (t : Tgt) (b : BufStore) (rest : Nat → List BufStore) (key fold d off : Nat),
    s.chip.coresOf t ≠ [] → (∀ k ∈ s.chip.coresOf t, (s.chip.core k).released = b :: rest k) →
    (∀ n, t = .fox n → s.chip.fld (R.OWL_INJ n.val) F.OWL_INJ_ARMED = 0) →
    (b.size = 8 → b.addr % 8 = 0 → b.data < 2 ^ 64 → plain s.chip key (.scratch d off) →
      s.chip.route ((envOfCore s t (leadCore s t)).who b.sup) b.addr true = .word key fold (.scratch d off) →
      answers (.storeResponse t 0#2) s fun u => u.pending = s.pending ∧ memWord u.mem key = b.data
        ∧ memChk u.mem key = some (codeCheck b.data fold)
        ∧ (∀ a, (a < key ∨ key + 8 ≤ a) → a ≠ chkKey key → memGet? u.mem a = memGet? s.mem a)
        ∧ ∀ k ∈ s.chip.coresOf t, (u.chip.core k).released = rest k ∧ (u.chip.core k).irq = (s.chip.core k).irq)
    ∧ (b.job = none → 0 < b.size → b.size ≤ 16 → ∀ lost : BitVec 2, lost.getLsbD 0 = true →
        let line := b.addr / 256
        let last := (b.addr + b.size - 1) / 256
        (last = line ∨ lost.getLsbD 1 = true) →
        answers (.storeResponse t lost) s fun u => u.mem = s.mem ∧ u.pending = s.pending
          ∧ ∀ k ∈ s.chip.coresOf t, (u.chip.core k).released = rest k
            ∧ (u.chip.core k).irq = (s.chip.core k).irq ++ [(0x0A, BitVec.ofNat 64 b.addr)]
                ++ (if last = line then [] else [(0x0A, BitVec.ofNat 64 (last * 256))]))

/-! ## Streams (chapters 3 to 5, 11) -/

/-- R54, R55: S.ISSUE whose descriptor has been released and is not refused takes the lowest free issue slot: the slot holds the descriptor, waiting, with
the next order, and Gd receives its handle. -/
def Sys2Proof.Claims.StreamIssueTakesTheLowestFreeSlot : Prop :=
  ∀ (s : State) (n : Fin 48) (d : Reg) (q : Fin 4) (desc : HeldDesc) (i : Nat), let t := Tgt.fox n
    takes s t → (∀ k ∈ s.chip.coresOf t, (s.chip.core k).issue = some desc ∧ (s.chip.core k).released = []
      ∧ (s.chip.core k).precise = false ∧ (s.chip.core k).pwait = none) →
    (s.chip.clu n.val).haltAt = none → s.chip.refusal n.val (s.chip.viewOf n.val desc.words) = none →
    s.chip.freeIssue n.val = some i → (s.chip.slot n.val i).unconsumed = false → (s.chip.slot n.val i).used = true →
    answers (.sIssue t d q) s fun u => u.mem = s.mem ∧ u.pending = s.pending
      ∧ (let z := u.chip.slot n.val i
         z.state = .waiting ∧ z.desc = desc.words ∧ z.gen = ((s.chip.slot n.val i).gen + 1) % 1024
          ∧ z.order = (s.chip.clu n.val).nextOrder ∧ z.taken = [] ∧ z.done = [] ∧ z.en = desc.ste % 128
          ∧ (∀ j, j ≠ i → u.chip.slot n.val j = s.chip.slot n.val j) ∧ (u.chip.clu n.val).nextOrder = (s.chip.clu n.val).nextOrder + 1
          ∧ ∀ k ∈ s.chip.coresOf t, wentOn (s.chip.core k) (u.chip.core k)
            ∧ (u.chip.core k).g d = BitVec.ofNat 64 (z.gen * 64 + i) ∧ gBut d (s.chip.core k) (u.chip.core k))

/-- R83, R84, R144: S.WAIT of a stream that has retired gives its status word; VBAR with nothing in flight and no unconsumed fault gives 0; S.FLAGS gives handle,
enables and flags; S.FENCE sets a fence behind every stream accepted so far. Each lets the core go on, and no other register moves. -/
def Sys2Proof.Claims.StreamWordsReportRetiredStreams : Prop :=
  ∀ (s : State) (n : Fin 48) (d a : Reg), let t := Tgt.fox n
    let cl := s.chip.clu n.val
    takes s t → (∀ k ∈ s.chip.coresOf t, (s.chip.core k).mustClose (envOfCore s t k) = false) → cl.traps = [] → cl.haltAt = none →
    (∀ h : Nat, (∀ k ∈ s.chip.coresOf t, ((s.chip.core k).g a).toNat = h) → h < 65536 →
      let z := s.chip.slot n.val (h % 64)
      z.used = true → z.gen = h / 64 → z.state = .retired →
      (answers (.sWait t d a) s fun u => u.mem = s.mem ∧ u.pending = s.pending ∧ ∀ k ∈ s.chip.coresOf t,
        wentOn (s.chip.core k) (u.chip.core k) ∧ gBut d (s.chip.core k) (u.chip.core k)
          ∧ (u.chip.core k).g d = BitVec.ofNat 64 (z.cause * 2 ^ 56 + h * 2 ^ 40 + z.pos % 2 ^ 40))
      ∧ (wordDoes (.sFlags t d a) t s fun x y => gBut d x y ∧ y.g d = BitVec.ofNat 64
          (h * 2 ^ 48 + (if Nat.land z.flagsE z.en = 0 then 0 else 2 ^ 15) + z.en * 2 ^ 8 + z.flagsE)))
    ∧ ((∀ e ∈ cl.slots, e.2.inFlight = false ∧ e.2.unconsumed = false) → answers (.vbar t d) s fun u => u.mem = s.mem
        ∧ ∀ k ∈ s.chip.coresOf t, wentOn (s.chip.core k) (u.chip.core k) ∧ (u.chip.core k).g d = 0#64
          ∧ gBut d (s.chip.core k) (u.chip.core k))
    ∧ (answers (.sFence t) s fun u => u.mem = s.mem ∧ (∀ k ∈ s.chip.coresOf t,
        wentOn (s.chip.core k) (u.chip.core k) ∧ sameRegs (s.chip.core k) (u.chip.core k))
        ∧ ((cl.slots.any fun e => e.2.inFlight && decide (e.2.order < cl.nextOrder)) = true →
            cl.nextOrder ∈ (u.chip.clu n.val).fences))

/-- R54, R55: S.ISSUE whose descriptor has been released and is not refused takes the lowest free issue slot: the slot holds the descriptor, waiting,
with the next order, and Gd receives its handle. R83, R84, R144: S.WAIT of a stream that has retired gives its status word; VBAR with nothing in
flight and no unconsumed fault gives 0; S.FLAGS gives handle, enables and flags; S.FENCE sets a fence behind every stream accepted so far. Each lets
the core go on, and no other register moves. -/
def Obligations.StreamWordsIssueAndReport : Prop := StreamIssueTakesTheLowestFreeSlot ∧ StreamWordsReportRetiredStreams

/-- R78, R82: a waiting stream starts exactly when no older stream in flight conflicts with it and no fence stands between; nothing else moves. -/
def Sys2Proof.Claims.StreamsStartWhenNothingConflicts : Prop :=
  ∀ (s : State) (n : Fin 48) (k : Fin 64), let cl := s.chip.clu n.val
    let x := s.chip.slot n.val k.val
    x.state = .waiting →
    ((∀ e ∈ cl.slots, cl.waitsOn e.2 x = false) →
      answers (.streamStart n k) s fun u => u = { s with chip := u.chip } ∧ u.chip.regs = s.chip.regs ∧ u.chip.cores = s.chip.cores
        ∧ u.chip.slot n.val k.val = { x with state := .running } ∧ ∀ j, j ≠ k.val → u.chip.slot n.val j = s.chip.slot n.val j)
    ∧ ((∃ e ∈ cl.slots, cl.waitsOn e.2 x = true) → exec (.streamStart n k) s = .next s)

/-- R72, R115: a block that is ready, whose reads all answer and meet no fault, is taken by its unit: the slot notes it as taken and the stream runs on. A
block that is not ready changes nothing. -/
def Sys2Proof.Claims.BlocksAreTakenWhenReady : Prop :=
  ∀ (s : State) (n : Fin 48) (k : Fin 64) (b : Nat), let x := s.chip.slot n.val k.val
    (s.chip.blockReady n.val k.val b = false → exec (.blockTake n k b) s = .next s)
    ∧ (s.chip.blockReady n.val k.val b = true →
      (let w := tileWho s.chip n.val ((s.chip.unitTiles n.val (x.unitOf b)).headD 0 / 2)
       let r := readElems s.chip s.mem w x.view (min 512 (x.view.n - 512 * b)) (512 * b) {}
       r.2.halt = none ∧ ∀ h ∈ r.2.hits, h.out = .clean ∧ s.chip.bypass h.loc = none) →
      answers (.blockTake n k b) s fun u => u.mem = s.mem ∧ u.pending = s.pending ∧ u.chip.cores = s.chip.cores
        ∧ (u.chip.slot n.val k.val).taken = x.taken ++ [b] ∧ (u.chip.slot n.val k.val).state = .running
        ∧ (u.chip.slot n.val k.val).fault = none ∧ ∀ j, j ≠ k.val → u.chip.slot n.val j = s.chip.slot n.val j)

/-- R78, R82: a waiting stream starts exactly when no older stream in flight conflicts with it and no fence stands between; nothing else moves. R72,
R115: a block that is ready, whose reads all answer and meet no fault, is taken by its unit: the slot notes it as taken and the stream runs on. A
block that is not ready changes nothing. -/
def Obligations.StreamsStartAndTakeBlocks : Prop := StreamsStartWhenNothingConflicts ∧ BlocksAreTakenWhenReady

/-- R309 to R313: in the SAFE configurations a tile's oldest open window closes with its signature, which CMT_SIG then holds; when both tiles of a pair hold
equal closed windows, here of one aligned word of scratch whose entry is clean (R311), the word is written once and both windows leave the buffers. -/
def Obligations.CommitWindowsCloseAndCommit : Prop :=
  ∀ (s : State) (n : Fin 48), isSafe (s.chip.cluMode n.val) = true → s.chip.fld (R.OWL_INJ n.val) F.OWL_INJ_ARMED = 0 →
    (∀ (t : Fin 16) (w : CmtWin) (rest : List CmtWin), (s.chip.tile (16 * n.val + t.val)).wins = w :: rest → w.closed = false →
      answers (.tileWindowClose n t) s fun u => u.mem = s.mem ∧ u.pending = s.pending
        ∧ (u.chip.tile (16 * n.val + t.val)).wins = { w with closed := true, sig := winSig w, inj := 0 } :: rest
        ∧ u.chip.reg (R.CMT_SIG (16 * n.val + t.val)) = BitVec.ofNat 64 (winSig w))
    ∧ (∀ (p : Fin 8) (a : CmtWin) (e : ResWord) (key fold d off : Nat) (beat : Option Word), let te := 16 * n.val + 2 * p.val
      let x := s.chip.slot n.val a.slot
      (s.chip.tile te).wins = [a] → (s.chip.tile (te + 1)).wins = [a] → a.closed = true → a.inj = 0 → a.words = [e]
      → x.state = .running → x.inOrder a = true → (x.view.index (3 + a.dest)) = none → e.size = 8 → e.addr % 8 = 0 → key % 8 = 0
      → e.val < 2 ^ 64 → e.chk = codeCheck e.val (cmtEntry a.dest a.half 0)
      → (s.chip.fld (R.CMT_STAT te) F.CMT_STAT_HB_PHASE = 4095 → beatOk (mget 0 (s.chip.clu n.val).pairHb p.val) beat = true)
      → plain s.chip key (.scratch d off)
      → s.chip.route (tileWho s.chip n.val p.val) e.addr true = .word key fold (.scratch d off) →
      answers (.pairDecision n p 0 ⟨false, beat⟩) s fun u => u.pending = s.pending ∧ memWord u.mem key = e.val
        ∧ (∀ b, (b < key ∨ key + 8 ≤ b) → b ≠ chkKey key → memGet? u.mem b = memGet? s.mem b)
        ∧ (u.chip.tile te).wins = [] ∧ (u.chip.tile (te + 1)).wins = []
        ∧ (u.chip.slot n.val a.slot).done = x.done ++ [a.key])

/-- R73, R83, R87, R88, R90: a running stream whose blocks have all been taken and whose words are written retires with cause 0 when its tiles' flags agree; an
imprecise stream that met a fault shows it in AGU_SFLT, keeps cause and block, and interrupts every member core; R88: a PRECISE stream that met a fault
at element k retires with its cause and POS k, a fault that nothing has consumed yet; clearing AGU_SFLT clears both registers. -/
def Obligations.StreamsRetireFaultAndClear : Prop :=
  ∀ (s : State) (n : Fin 48) (k : Fin 64), let x := s.chip.slot n.val k.val
    (x.state = .running → x.cause = 0 → x.fault = none → x.view.blocks ≤ x.taken.length → x.written = true →
      x.flagsE = x.flagsO → x.trapE = x.trapO → s.chip.fld (R.OWL_INJ n.val) F.OWL_INJ_ARMED = 0 →
      answers (.streamRetire n k none) s fun u => u.mem = s.mem ∧ u.pending = s.pending ∧ u.chip.regs = s.chip.regs
        ∧ u.chip.cores = s.chip.cores ∧ (u.chip.slot n.val k.val).state = .retired ∧ (u.chip.slot n.val k.val).cause = 0
        ∧ (u.chip.slot n.val k.val).pos = 0 ∧ (u.chip.slot n.val k.val).writes = []
        ∧ (∀ j, j ≠ k.val → u.chip.slot n.val j = s.chip.slot n.val j)
        ∧ (u.chip.clu n.val).traps = (s.chip.clu n.val).traps ++ x.trap k.val)
    ∧ (∀ f, x.state = .running → x.cause = 0 → x.fault = some f → x.view.precise = false →
        s.chip.flag (R.AGU_SFLT_ADDR n.val) F.AGU_SFLT_ADDR_VALID = false → f.cause < 64 → f.addr < 2 ^ 48 → f.cause ≠ 0 →
      answers (.streamFault n k) s fun u => u.mem = s.mem ∧ u.pending = s.pending ∧ (u.chip.slot n.val k.val).state = .retired
        ∧ (u.chip.slot n.val k.val).cause = f.cause ∧ (u.chip.slot n.val k.val).pos = f.elem / 512
        ∧ u.chip.fld (R.AGU_SFLT n.val) F.AGU_SFLT_CAUSE = f.cause ∧ u.chip.fld (R.AGU_SFLT_ADDR n.val) F.AGU_SFLT_ADDR_VALID = 1
        ∧ u.chip.fld (R.AGU_SFLT_ADDR n.val) F.AGU_SFLT_ADDR_ADDR = f.addr
        ∧ ∀ i ∈ s.chip.members n.val, (u.chip.core (3 * n.val + i)).irq
            = (s.chip.core (3 * n.val + i)).irq ++ [(0x0E, u.chip.reg (R.AGU_SFLT_ADDR n.val) &&& 0xFFFFFFFFFFFF#64)])
    ∧ (∀ f, x.state = .running → x.cause = 0 → x.fault = some f → x.view.precise = true → x.written = true → 0x21 ≤ f.cause →
        f.cause ≤ 0x24 → x.flagsE = x.flagsO → x.trapE = x.trapO → s.chip.fld (R.OWL_INJ n.val) F.OWL_INJ_ARMED = 0 →
        (s.chip.clu n.val).waiting = [] →
      answers (.streamFault n k) s fun u => let z := u.chip.slot n.val k.val
        u.mem = s.mem ∧ u.pending = s.pending ∧ u.chip.cores = s.chip.cores ∧ z.state = .retired ∧ z.cause = f.cause ∧ z.pos = f.elem
          ∧ z.consumed = false ∧ z.unconsumed = true ∧ z.gen = x.gen ∧ z.writes = [] ∧ z.hull = none)
    ∧ (answers (.aguSfltClear n) s fun u => u.mem = s.mem ∧ u.pending = s.pending ∧ u.chip.reg (R.AGU_SFLT n.val) = 0#64
        ∧ u.chip.reg (R.AGU_SFLT_ADDR n.val) = 0#64
        ∧ (∀ a, a ≠ R.AGU_SFLT n.val → a ≠ R.AGU_SFLT_ADDR n.val → u.chip.reg a = s.chip.reg a)
        ∧ u.chip = { s.chip with regs := u.chip.regs })

/-! ## Matrices and links (chapter 7) -/

/-- R194, R195, R202, R203: with no piece presented to a target port the grant changes nothing. Of the pieces presented, each with the credits that it
needs, the port grants one whose master comes first after the master granted last: a piece at its last target port waits to be performed; one
that takes a link takes one credit of its channel and waits at the next matrix; one whose path is fenced is answered ABORT with zeros as
read data. Every other piece is as before, and nothing but the fabric and the endpoint's status moves. -/
def Sys2Proof.Claims.MatrixGrantsInTurn : Prop :=
  ∀ (s : State) (d : Fin 5) (tgt : Nat), let offers := s.chip.presented d.val tgt
    let row : Instr := .matrixPieceGrant [] ⟨d, tgt⟩
    let turn := fun (p : Offer) => match mget? s.chip.fabric.lastGrant (d.val * 256 + tgt) with
      | some k => (p.port + 128 - k - 1) % 128
      | none => p.port
    (offers = [] → exec row s = .next s)
    ∧ (offers ≠ [] → ¬ (d = 4 ∧ tgt = 0x7D) → (∀ p ∈ offers, p.cred = .go ∧ p.port < 128) →
      s.chip.shareFilter d.val tgt offers = offers →
      ∃ g ∈ offers, ∃ o, s.chip.fabric.out[g.idx]? = some o ∧ (∀ q ∈ offers, turn g ≤ turn q)
        ∧ answers row s fun u => u.mem = s.mem ∧ u.pending = s.pending
          ∧ u.chip = { s.chip with regs := u.chip.regs, fabric := u.chip.fabric }
          ∧ mget? u.chip.fabric.lastGrant (d.val * 256 + tgt) = some g.port
          ∧ (∀ j, j ≠ g.idx → u.chip.fabric.out[j]? = s.chip.fabric.out[j]?)
          ∧ (let was := { o with grants := o.grants ++ [(d.val, g.port, tgt)], stamp := s.chip.fabric.stamp }
             let kept := u.chip.regs = s.chip.regs ∧ u.chip.fabric.credits = s.chip.fabric.credits
             match s.chip.pathFrom o d.val with
             | [] => kept ∧ u.chip.fabric.out[g.idx]? = some { was with place := none, parked := false }
             | e :: r =>
               if s.chip.pathFenced d.val (e :: r) then
                 kept ∧ u.chip.fabric.out[g.idx]?
                   = some { was with place := none, answer := some (3, if o.piece.write then [] else List.replicate o.piece.nwords 0#64) }
               else
                 let i := firstEndpoint d.val (e :: r)
                 let ch := s.chip.linkChan d.val i g.port
                 u.chip.credits d.val i ch = s.chip.credits d.val i ch - 1
                   ∧ (∀ k, k ≠ hopKey d.val i ch → mget 32 u.chip.fabric.credits k = mget 32 s.chip.fabric.credits k)
                   ∧ (∀ a, a ≠ R.FAB_LINK_STAT d.val i → u.chip.reg a = s.chip.reg a)
                   ∧ u.chip.fabric.out[g.idx]?
                     = some { was with place := some (arrivePort d.val i ch), hops := o.hops ++ [hopKey d.val i ch], parked := false }))

/-- R193, R198, R201: a burst that a master issues waits at the matrix of its die as pieces that end at 256-byte boundaries, which together are the
burst's words and keep its master, kind, job and order; their ID is that of the master's kind, or one that no outstanding piece of the master has. -/
def Sys2Proof.Claims.BurstsAreSplitIntoPieces : Prop :=
  ∀ (s : State) (d : Fin 5) (p : Piece) (tgt : Nat), p.die = d.val → s.chip.mayIssue p = true →
    answers (.matrixPieceGrant [p] ⟨d, tgt⟩) s fun u => u.mem = s.mem ∧ u.pending = s.pending
      ∧ u.chip = { s.chip with regs := u.chip.regs, fabric := u.chip.fabric }
      ∧ ∃ l : List Piece, u.chip.fabric.out.map OutPiece.piece = s.chip.fabric.out.map OutPiece.piece ++ l
        ∧ (let size := fun (x : Piece) => if p.write then x.words.length else x.nwords
           (∀ x ∈ l, x.die = p.die ∧ x.port = p.port ∧ x.write = p.write ∧ x.job = p.job ∧ x.id = s.chip.burstId p ∧ x.addr % 8 = 0
              ∧ 0 < size x ∧ x.addr % 256 + 8 * size x ≤ 256)
            ∧ (∀ a, (∃ x ∈ l, x.addr / 8 ≤ a ∧ a < x.addr / 8 + size x) ↔ p.addr / 8 ≤ a ∧ a < p.addr / 8 + size p)
            ∧ (p.write = true → (l.map Piece.words).flatten = p.words))
        ∧ (d = 4 → s.chip.burstId p = if p.port = 0 then 0x7F else p.port - 1)
        ∧ (d ≠ 4 → 0x60 ≤ p.port → p.port < 0x6C → s.chip.burstId p = 0)
        ∧ (d ≠ 4 → ¬ (0x60 ≤ p.port ∧ p.port < 0x6C) →
            (∃ k < 128, ∀ o ∈ s.chip.fabric.out, sameMaster o.piece p = true → o.piece.id ≠ k) →
            s.chip.burstId p < 128 ∧ ∀ o ∈ s.chip.fabric.out, sameMaster o.piece p = true → o.piece.id ≠ s.chip.burstId p)

/-- R37, R201 (the scheme is the model's choice, log 77): at a port of H that partitions share, once the cycles left of the window are no more than what
the partitions with pieces there are owed of BW_SHARE / 32 of it, a partition that is owed something is served. -/
def Sys2Proof.Claims.OwedSharesAreServed : Prop :=
  ∀ (s : State) (tgt : Nat), let offers := s.chip.presented 4 tgt
    let tag := fun (p : Offer) => (s.chip.fabric.out[p.idx]?).bind s.chip.tagOf
    let here := (List.range 4).filter fun p => offers.any fun x => tag x == some p
    sharedPort 4 tgt = true → tgt ≠ 0x7D → (∀ p ∈ offers, p.cred = .go) →
    1024 - s.chip.fabCycleH % 1024 ≤ (here.map (s.chip.shareOwed tgt)).sum → (∃ p ∈ here, 0 < s.chip.shareOwed tgt p) →
    ∃ g ∈ offers, ∃ p, tag g = some p ∧ 0 < s.chip.shareOwed tgt p ∧ answers (.matrixPieceGrant [] ⟨4, tgt⟩) s fun u => u.mem = s.mem
      ∧ u.pending = s.pending ∧ mget? u.chip.fabric.lastGrant (4 * 256 + tgt) = some g.port
      ∧ u.chip.shareUsed tgt p = s.chip.shareUsed tgt p + 1

/-- R196, R197, R199, R211: a response waits until the last target port has granted its piece. The response of `o`, the oldest of its master and ID and
the next in its target port's order of grants, returns once: the piece leaves the outstanding ones with the answer that it had, with the word
read, or after its word is stored; the default target answers DEFAULT with zeros and latches FAB_DEFERR. R169: a stack that answers no request
leaves the piece outstanding. -/
def Sys2Proof.Claims.PiecesAreAnsweredOnce : Prop :=
  ∀ (s : State) (pre post : List OutPiece) (o : OutPiece) (die : Fin 5), o.piece.die = die.val → s.chip.fabric.out = pre ++ o :: post →
    (∀ x ∈ pre, ¬ (x.piece.die = o.piece.die ∧ x.piece.port = o.piece.port ∧ x.piece.id = o.piece.id)) →
    (∀ x ∈ pre ++ post, x.due = true → x.stamp ≠ o.stamp ∧ (x.target = o.target → o.stamp < x.stamp)) →
    let p := o.piece
    let w := { pieceWho s.chip p with granted := true }
    let row : Instr := .pieceResponse die p.port p.id
    let after := fun (u : State) (st : Nat) (data : List Word) => u.pending = s.pending
      ∧ u.chip.fabric = { s.chip.fabric with out := pre ++ post, lastResp := some (st, data) }
    let goes := o.due = true ∧ o.poisoned = false ∧ s.chip.pieceSilent o = false
    let served := goes ∧ ∀ t, o.target = some t → t.2 ≠ 0x7F
    (o.answer = none → o.due = false → exec row s = .next s)
    ∧ (o.due = true → s.chip.pieceSilent o = true → exec row s = .next s)
    ∧ (∀ st data, st ≠ 3 → o.answer = some (st, data) → answers row s fun u => after u st data ∧ u.mem = s.mem
        ∧ u.chip = { s.chip with fabric := u.chip.fabric })
    ∧ (served → p.write = false → p.nwords = 1 → ∀ key fold loc,
        s.chip.route w (p.addr / 8 * 8) false = .word key fold loc → plain s.chip key loc →
        memChk s.mem key = some (codeCheck (memWord s.mem key) fold) →
        answers row s fun u => after u 0 [wNat (memWord s.mem key)] ∧ u.mem = s.mem ∧ u.chip = { s.chip with fabric := u.chip.fabric })
    ∧ (served → p.write = false → p.nwords = 1 → ∀ e,
        s.chip.route w (p.addr / 8 * 8) false = .deflt e →
        answers row s fun u => after u 1 [0#64] ∧ u.mem = s.mem
          ∧ u.chip = { s.chip.deferr e w false p.addr with fabric := u.chip.fabric })
    ∧ (served → p.write = true → ∀ v key fold loc, p.words = [(v, 0xFF#8)] →
        s.chip.route w (p.addr / 8 * 8) true = .word key fold loc → plain s.chip key loc →
        (∀ d off, loc = .dram d off → s.chip.copyOf d (chanOf off) = none) →
        answers row s fun u => after u 0 [] ∧ u.mem = memPutWord s.mem key v.toNat (codeCheck v.toNat fold)
          ∧ u.chip = { s.chip with fabric := u.chip.fabric })
    ∧ (served → p.write = true → ∀ v e, p.words = [(v, 0xFF#8)] →
        s.chip.route w (p.addr / 8 * 8) true = .deflt e →
        answers row s fun u => after u 1 [] ∧ u.mem = s.mem ∧ u.chip = { s.chip.deferr e w true p.addr with fabric := u.chip.fabric })
    ∧ (goes → ∀ e, o.target = some (e, 0x7F) → answers row s fun u =>
        after u 1 (if p.write then [] else List.replicate p.nwords 0#64) ∧ u.mem = s.mem
          ∧ u.chip = { s.chip.deferr e w p.write p.addr with fabric := u.chip.fabric })

/-- R193, R198, R201: bursts are split into pieces at 256-byte boundaries. R194, R195, R202, R203: a target port grants the presented piece whose master comes
first after the master granted last, over a link for one credit of its channel. R37: an owed share is served. R196, R197, R199, R211: a response returns
once, in the order of grants, for a piece that its last target port has granted. -/
def Obligations.PiecesAreGrantedAndAnswered : Prop :=
  MatrixGrantsInTurn ∧ BurstsAreSplitIntoPieces ∧ OwedSharesAreServed ∧ PiecesAreAnsweredOnce

/-- R201, R327, R328, Table 13.7: a returned credit counts once, up to 32; a failed replay is counted at its hop and nothing else moves; one that
arrives intact ends the count and is a CE of source 0x01 with the replays that failed; a third failure is source 0x02, a UCC; a link is up again
when the last of its channels that retrain is restored; a channel that retraining does not restore is fenced at both ends of its link. -/
def Obligations.LinksCountReplayAndFence : Prop :=
  ∀ (s : State),
    (∀ (d : Fin 5) (e : Fin 4) (ch : Fin 3), (d.val < 4 → e.val ≤ 2) → answers (.linkCreditReturn d e ch) s fun u =>
      u.mem = s.mem ∧ u.pending = s.pending ∧ u.chip = { s.chip with regs := u.chip.regs, fabric := u.chip.fabric }
      ∧ u.chip.credits d.val e.val ch.val = min 32 (s.chip.credits d.val e.val ch.val + 1)
      ∧ (∀ k, k ≠ hopKey d.val e.val ch.val → mget 32 u.chip.fabric.credits k = mget 32 s.chip.fabric.credits k)
      ∧ (ch = 0 → u.chip.fld (R.FAB_LINK_STAT d.val e.val) F.FAB_LINK_STAT_CRED_AVAIL = min 32 (s.chip.credits d.val e.val 0 + 1))
      ∧ ∀ a, a ≠ R.FAB_LINK_STAT d.val e.val → u.chip.reg a = s.chip.reg a)
    ∧ (∀ (h : Hop), let n := mget 0 s.chip.fabric.hopTries (hopNo h)
        let counts := fun (u : State) (f : Fld) =>
          u.chip.fld (R.FLT_COUNT (hopPlace h).1) f = satAdd (s.chip.fld (R.FLT_COUNT (hopPlace h).1) f) 1 65535
        (n < 2 → answers (.hopReplay h false) s fun u =>
          u.mem = s.mem ∧ u.pending = s.pending ∧ u.chip = { s.chip with fabric := u.chip.fabric }
          ∧ u.chip.fabric = { s.chip.fabric with hopTries := mset s.chip.fabric.hopTries (hopNo h) (n + 1) })
        ∧ (1 ≤ h.code → h.code < 32 → h.die < 5 → h.unit < 12 → answers (.hopReplay h true) s fun u => u.mem = s.mem ∧ u.pending = s.pending
            ∧ u.chip.fabric.hopTries = mdel s.chip.fabric.hopTries (hopNo h) ∧ counts u F.FLT_COUNT_CE
            ∧ (s.chip.faults.halted = false → s.chip.flag (R.FLT_STAT (hopPlace h).1) F.FLT_STAT_VALID = false →
                u.chip.reg (R.FLT_INFO (hopPlace h).1)
                  = wNat (h.code % 256 * 2 ^ 16 + h.port % 256 * 2 ^ 8 + min 2 n)))
        ∧ (2 ≤ n → h.code = 4 → h.die < 4 → h.unit < 3 → h.ch < 3 → h.jobs = [] → mget? s.chip.faults.hopExh (hopNo h) = none →
            s.chip.consequential (hopDet 0x02 h 3) = false → answers (.hopReplay h false) s fun u => u.mem = s.mem ∧ u.pending = s.pending
            ∧ u.chip.fabric.hopTries = mdel s.chip.fabric.hopTries (hopNo h) ∧ counts u F.FLT_COUNT_UCC
            ∧ (s.chip.faults.halted = false → s.chip.fabric.out = [] → u.chip.fabric.out = [])))
    ∧ (∀ (d : Fin 4) (e : Fin 3) (ch : Fin 3), let f := farEnd d.val e.val
        let row := fun how => Instr.lossOfTraining d.castSucc e.castSucc ch how
        let up := fun (u : State) => (u.chip.fld (R.FAB_LINK_STAT d.val e.val) F.FAB_LINK_STAT_UP,
          u.chip.fld (R.FAB_LINK_STAT f.1 f.2) F.FAB_LINK_STAT_UP)
        let lost := fun (j : Fin 3) => ∃ k ∈ chanKeys d.val e.val j.val, k ∈ s.chip.fabric.untrained
        (answers (row 0) s fun u => u.mem = s.mem ∧ u.pending = s.pending ∧ up u = (0, 0)
          ∧ u.chip = { s.chip with regs := u.chip.regs, fabric := { s.chip.fabric with
              untrained := hopKey d.val e.val ch.val :: s.chip.fabric.untrained } })
        ∧ (s.chip.flag (R.FAB_LINK_STAT d.val e.val) F.FAB_LINK_STAT_FENCED = false → (∀ j, j ≠ ch → ¬ lost j) → answers (row 1) s fun u =>
            u.mem = s.mem ∧ u.pending = s.pending ∧ up u = (1, 1)
              ∧ u.chip = { s.chip with regs := u.chip.regs, fabric := u.chip.fabric })
        ∧ ((∃ j, j ≠ ch ∧ lost j) → answers (row 1) s fun u => u.mem = s.mem ∧ u.pending = s.pending
            ∧ u.chip = { s.chip with fabric := u.chip.fabric } ∧ ∀ k ∈ chanKeys d.val e.val ch.val, k ∉ u.chip.fabric.untrained)
        ∧ (s.chip.faults.halted = false → (∀ k < 4, s.chip.partOf k = none) → s.chip.fabric.out = [] →
            s.chip.consequential ⟨0x41, linkInst d.val, d.val * 2 ^ 28 + 0xF1FFFFF, 3, e.val * 2 ^ 8, [], 3 * e.val + ch.val, 0, false,
              false⟩ = false → answers (row 2) s fun u => u.mem = s.mem ∧ u.pending = s.pending
              ∧ bit (u.chip.reg (R.FLT_FENCE (linkInst d.val))).toNat (3 * e.val + ch.val) = true
              ∧ bit (u.chip.reg (R.FLT_FENCE (linkInst f.1))).toNat (3 * f.2 + ch.val) = true))

/-! ## Stored words (chapters 6, 8 and 12) -/

/-- R330, R331, Table 12.3: a word and its check bits as stored read clean; with any one of the 72 stored bits flipped the data are delivered
right and the bit is named; with any two of them flipped the word is uncorrectable; so it is at an address that differs in one or two bits. -/
def Sys2Proof.Claims.StoredDataCodeCorrectsOneAndFindsTwo : Prop :=
  ∀ d a : Nat, d < 2 ^ 64 → a < 2 ^ 45 →
    let flip := fun (k : Nat) (w : Nat × Nat) => if k < 64 then (nxor w.1 (2 ^ k), w.2) else (w.1, nxor w.2 (2 ^ (k - 64)))
    let seen := fun (w : Nat × Nat) (b : Nat) => synDecode (syndrome w.1 w.2 b)
    let good := (d, codeCheck d a)
    seen good a = .clean
    ∧ (∀ k < 72, let w := flip k good
        delivered w.1 (seen w a) = d ∧ seen w a ≠ .bad ∧ corrBit (seen w a) = k)
    ∧ (∀ j < 72, ∀ k < 72, j ≠ k → seen (flip j (flip k good)) a = .bad)
    ∧ ∀ j < 45, ∀ k < 45, seen good (nxor a (2 ^ j)) = .bad ∧ (j ≠ k → seen good (nxor (nxor a (2 ^ j)) (2 ^ k)) = .bad)

/-- R155, R156, R215, R330: a whole word written by a controller or by a word slot is stored with the check bits of its own address and every later
read delivers it; no other stored byte moves; reads of clean words, and a refresh, change nothing; of two writes of one cycle the one performed
later, in turn after the master served last, stands. -/
def Sys2Proof.Claims.WrittenWordsReadBack : Prop :=
  ∀ (s : State),
    let stored := fun (u : State) (key fold : Nat) (loc : Loc) (v : Word) =>
      readStored u.chip u.mem key fold loc = ⟨.okay, v.toNat, some ⟨loc, .clean, 0⟩⟩
        ∧ ∀ a, (a < key ∨ key + 8 ≤ a) → a ≠ chkKey key → memGet? u.mem a = memGet? s.mem a
    (∀ (d : Fin 4) (g n : Nat) (i : Fin 8) (v : Word) (master : Nat) (job : Option Nat),
      s.chip.physOf d.val (g % 61) = some n → g < 767557632 →
      let fold := foldOf (g % 61) (g / 61) i.val
      s.chip.bypass (.dram d.val (8 * fold)) = none → s.chip.copyOf d.val (g % 61) = none → s.chip.stackOff d.val n = false →
      answers (.memCtrlWrite d g [(i, v, 0xFF#8)] master job) s fun u => u.pending = s.pending ∧ u.chip = s.chip
        ∧ stored u (dramKey d.val n (g / 61) (8 * i.val)) fold (.dram d.val (8 * fold)) v)
    ∧ (∀ (d : Fin 4) (n : Fin 64) (q master : Nat) (job : Option Nat),
      let l := s.chip.fld (R.RES_PCH d.val n.val) F.RES_PCH_LOGICAL
      (∀ i < 8, s.chip.bypass (.dram d.val (8 * foldOf l q i)) = none
        ∧ memChk s.mem (dramKey d.val n.val q (8 * i)) = some (codeCheck (memWord s.mem (dramKey d.val n.val q (8 * i))) (foldOf l q i))) →
      exec (.memCtrlRead d n q master job) s = .next s)
    ∧ (∀ st : Fin 8, exec (.dramRefresh st) s = .next s)
    ∧ (∀ (d : Fin 4) (off : Nat) (v w : Word) (a b : Nat), off % 8 = 0 → off < 0x6000000 → a < b →
      plain s.chip (0x400000000000 + d.val * 0x10000000 + off) (.scratch d.val off) →
      let slot := 2 * slotNo d.val off
      let put := fun (m : Nat) (x : Word) => SlotAccess.mk m off (some (x, 0xFF#8)) none
      let key := 0x400000000000 + d.val * 0x10000000 + off
      let one := fun (l : List SlotAccess) (m : Nat) (x : Word) => answers (.scratchAccess d.castSucc off l) s fun u =>
        u.pending = s.pending ∧ stored u key (off / 8) (.scratch d.val off) x
          ∧ u.chip = { s.chip with fabric := { s.chip.fabric with slotLast := mset s.chip.fabric.slotLast slot m } }
      one [put a v] a v
      ∧ (mget? s.chip.fabric.slotLast slot = some a → one [put a v, put b w] a v)
      ∧ (mget? s.chip.fabric.slotLast slot = some b → one [put b w, put a v] b w))

/-- R330, R331, Table 12.3: a word and its check bits as stored read clean; with any one of the 72 stored bits flipped the data are delivered right
and the bit is named; with any two of them flipped the word is uncorrectable; so it is at an address that differs in one or two bits. R155, R156,
R215, R330: a whole word written by a controller or by a word slot is stored with the check bits of its own address and every later read delivers it;
no other stored byte moves; reads of clean words, and a refresh, change nothing; of two writes of one cycle the one performed later, in turn after the
master served last, stands. -/
def Obligations.WrittenWordsCarryTheirCode : Prop := StoredDataCodeCorrectsOneAndFindsTwo ∧ WrittenWordsReadBack

/-- R167, Table 6.4, Table 19.8: a reading below every threshold moves TEMP and TEMP_MAX alone; one of 85 to 94 degrees in the normal state doubles the
refresh and raises the stack's event, and the contents stay; a retraining that restores the channel is only counted. -/
def Sys2Proof.Claims.StackReadingsAndRetrainingAreReported : Prop :=
  ∀ (s : State),
    (∀ (st : Fin 8) (t : Int), let a := R.MEM_STAT st.val;
      -128 ≤ t → t < 95 → s.chip.fld a F.MEM_STAT_PSTATE ≠ 2 → s.chip.flag a F.MEM_STAT_THROTTLE = false →
      s.chip.flag a F.MEM_STAT_REF2X = false → answers (.stackTempRead st t) s fun u => u.mem = s.mem ∧ u.pending = s.pending
        ∧ (∀ b, b ≠ a → u.chip.reg b = s.chip.reg b) ∧ s8 (u.chip.fld a F.MEM_STAT_TEMP) = t
        ∧ s8 (u.chip.fld a F.MEM_STAT_TEMP_MAX) = max (s8 (s.chip.fld a F.MEM_STAT_TEMP_MAX)) t
        ∧ u.chip.fld a F.MEM_STAT_REF2X = b2n (decide (85 ≤ t)) ∧ u.chip.fld a F.MEM_STAT_THROTTLE = 0
        ∧ u.chip.faults.evFlight = s.chip.faults.evFlight ++ (if 85 ≤ t then [123 + st.val] else []))
    ∧ ∀ (d : Fin 4) (n : Fin 64), let a := R.MEM_PCH_STAT (2 * d.val + n.val / 32) (n.val % 32)
      answers (.channelRetraining d n false) s fun u => u.mem = s.mem ∧ u.pending = s.pending
        ∧ u.chip = { s.chip with regs := u.chip.regs } ∧ (∀ b, b ≠ a → u.chip.reg b = s.chip.reg b)
        ∧ u.chip.fld a F.MEM_PCH_STAT_RETRAINS = satAdd (s.chip.fld a F.MEM_PCH_STAT_RETRAINS) 1 255

/-- R336, R338, R339: a scrub read of a clean granule only moves the lap on; a word with one data bit in error is written back right with fresh check
bits, unless newer master data stand; a lap that has reached its limit is reported once. -/
def Sys2Proof.Claims.HedgehogWritesCorrectionsBack : Prop :=
  (∀ (s : State) (d : Fin 4) (again : Fin 3), let p := s.chip.lapPos d.val
    s.chip.hogRuns d.val = true → (s.chip.dom d.val).rctDue = [] → s.chip.flag (R.HOG_STAT d.val) F.HOG_STAT_IN_SCRATCH = false →
    s.chip.flag (R.HOG_CTRL d.val) F.HOG_CTRL_DRAM_EN = true → p + 1 < 767557632 → s.chip.bypass (.dram d.val (p * 64)) = none →
    (∀ i < 8, s.chip.bypass (.dram d.val (p * 64 + 8 * i)) = none) →
    (∀ n, s.chip.physOf d.val (p % 61) = some n → ∀ i < 8, let k := dramKey d.val n (p / 61) (8 * i)
      memChk s.mem k = some (codeCheck (memWord s.mem k) ((p * 64 + 8 * i) / 8))) →
    answers (.scrubRead d [] again) s fun u => u.mem = s.mem ∧ u.pending = s.pending ∧ u.chip = { s.chip with regs := u.chip.regs }
      ∧ u.chip.lapPos d.val = p + 1 ∧ ∀ a, a ≠ R.HOG_LAP d.val → a ≠ R.HOG_STAT d.val → u.chip.reg a = s.chip.reg a)
  ∧ (∀ (c : Chip) (m : Memory) (key fold d off v i : Nat), d < 4 → v < 2 ^ 64 → i < 64 → memWord m key = nxor v (2 ^ i) →
    memChk m key = some (codeCheck v fold) → c.copyOf d (chanOf off) = none →
    (scrubWord c m key fold (.dram d off) false).2 = memPutWord m key v (codeCheck v fold)
      ∧ (scrubWord c m key fold (.dram d off) true).2 = m)
  ∧ ∀ (s : State) (d : Fin 4), let x := s.chip.dom d.val
    x.lapLate = false → s.chip.flag (R.HOG_CTRL d.val) F.HOG_CTRL_DRAM_EN = true → max 1 (s.chip.fld (R.HOG_CTRL d.val) F.HOG_CTRL_LAP_LIMIT) * 60000000000 ≤ s.chip.now - x.lapStart →
    answers (.lapOverdue d) s fun u => u.mem = s.mem ∧ u.pending = s.pending
      ∧ u.chip.fld (R.HOG_STAT d.val) F.HOG_STAT_OVERDUE = 1 ∧ (u.chip.dom d.val).lapLate = true
      ∧ u.chip.faults.evFlight = s.chip.faults.evFlight ++ [115 + d.val]
      ∧ (∀ a, a ≠ R.HOG_STAT d.val → u.chip.reg a = s.chip.reg a) ∧ exec (.lapOverdue d) u = .next u

/-- R222 to R225, Table 8.7: a wipe trigger sets WIPING, its cause and its count on all four dies and moves no stored word; when the wipe ends every
word of the secure regions reads 0 without error and every other stored byte is as before; the raw window performs GO on its word, data and check
bits as given, and refuses a secure word without a DL3 session. -/
def Sys2Proof.Claims.WipeAndRawWindowReachTheirWords : Prop :=
  ∀ (s : State),
    (∀ cause : Fin 3, answers (.secureWipe cause) s fun u => u.mem = s.mem ∧ u.pending = s.pending
      ∧ u.chip = { s.chip with regs := u.chip.regs } ∧ (∀ a, (∀ d < 4, a ≠ R.SCR_SEC_STAT d) → u.chip.reg a = s.chip.reg a)
      ∧ ∀ d < 4, let f := fun (x : State) (g : Fld) => x.chip.fld (R.SCR_SEC_STAT d) g;
          f u F.SCR_SEC_STAT_WIPING = 1 ∧ f u F.SCR_SEC_STAT_LAST_CAUSE = cause.val + 1
            ∧ f u F.SCR_SEC_STAT_WIPE_COUNT = satAdd (f s F.SCR_SEC_STAT_WIPE_COUNT) 1 65535)
    ∧ ((∃ d < 4, s.chip.flag (R.SCR_SEC_STAT d) F.SCR_SEC_STAT_WIPING = true) → (∀ k, s.chip.rawAt ≠ some (k, s.chip.now)) → answers .secureWipeDone s fun u => u.pending = s.pending
      ∧ (∀ d < 4, u.chip.fld (R.SCR_SEC_STAT d) F.SCR_SEC_STAT_WIPING = 0
          ∧ ∀ off, 0x5F00000 ≤ off → off < 0x6000000 → off % 8 = 0 →
            readStored u.chip u.mem (0x400000000000 + d * 0x10000000 + off) (off / 8) (.scratch d off)
              = ⟨.okay, 0, some ⟨.scratch d off, .clean, 0⟩⟩)
      ∧ ∀ a, (∀ d < 4, let lo := 0x400005F00000 + d * 0x10000000
            ¬ (lo ≤ a ∧ a < lo + 0x100000) ∧ ¬ (chkKey lo ≤ a ∧ a < chkKey (lo + 0x100000))) → memGet? u.mem a = memGet? s.mem a)
    ∧ ∀ (d : Fin 4) (w : Word), let c := s.chip.writeMasked (R.SCR_RAW_CTRL d.val) w
      let ctl := c.reg (R.SCR_RAW_CTRL d.val)
      let st := R.SCR_RAW_STAT d.val
      bit w.toNat 0 = true → fget ctl F.SCR_RAW_CTRL_EN = 1 →
        (c.rawRefused d.val ctl = true → answers (.rawMacroGo d w false) s fun u => u.mem = s.mem ∧ u.pending = s.pending
          ∧ u.chip.fld st F.SCR_RAW_STAT_DONE = 1 ∧ u.chip.fld st F.SCR_RAW_STAT_REFUSED = 1)
        ∧ (c.rawRefused d.val ctl = false → fget ctl F.SCR_RAW_CTRL_WRITE = 1 → answers (.rawMacroGo d w false) s fun u =>
          u.pending = s.pending ∧ u.chip.fld st F.SCR_RAW_STAT_DONE = 1
          ∧ u.mem = memPutWord s.mem (0x400000000000 + d.val * 0x10000000 + rawOff ctl) (s.chip.reg (R.SCR_RAW_DATA d.val)).toNat
              (s.chip.fld st F.SCR_RAW_STAT_CHECK))
        ∧ (c.rawRefused d.val ctl = false → fget ctl F.SCR_RAW_CTRL_WRITE = 0 → ∀ chk, chk < 256 →
          memChk s.mem (0x400000000000 + d.val * 0x10000000 + rawOff ctl) = some chk → answers (.rawMacroGo d w false) s fun u =>
          u.mem = s.mem ∧ u.pending = s.pending ∧ u.chip.fld st F.SCR_RAW_STAT_DONE = 1
          ∧ u.chip.reg (R.SCR_RAW_DATA d.val) = wNat (memWord s.mem (0x400000000000 + d.val * 0x10000000 + rawOff ctl))
          ∧ u.chip.fld st F.SCR_RAW_STAT_CHECK = chk)

/-- R167, Table 6.4, Table 19.8: a reading below every threshold moves TEMP and TEMP_MAX alone; one of 85 to 94 degrees in the normal state doubles
the refresh and raises the stack's event, and the contents stay; a retraining that restores the channel is only counted. R336, R338, R339: a scrub
read of a clean granule only moves the lap on; a word with one data bit in error is written back right with fresh check bits, unless newer master data
stand; a lap that has reached its limit is reported once. R222 to R225, Table 8.7: a wipe trigger sets WIPING, its cause and its count on all four
dies and moves no stored word; when the wipe ends every word of the secure regions reads 0 without error and every other stored byte is as before; the
raw window performs GO on its word, data and check bits as given, and refuses a secure word without a DL3 session. -/
def Obligations.StacksLapsAndWipesReachTheirWords : Prop := StackReadingsAndRetrainingAreReported ∧ HedgehogWritesCorrectionsBack ∧ WipeAndRawWindowReachTheirWords

/-! ## Mailboxes (chapter 15) -/

/-- R404, R405, R406, R408: a word of a mailbox that does not accept, has lost its framing or is full changes nothing; a first word with MARK 0xC is
kept; any other loses the framing, which is answered with ST_FRAMING; the second word of a new header with LEN 0 completes the command, which joins
the queues in order of arrival, chain A first within a cycle (R412), and EXPECT names the next CSEQ; RESYNC drops a partly received command and clears
FRAMING and EXP_VALID; that the abandoned command's CSEQ then stands in the history with ST_ABORTED is the model's choice (log 63). -/
def Sys2Proof.Claims.CommandWordsAreFramed : Prop :=
  ∀ (s : State) (ch : Fin 2) (w w0 : Word), let b := s.chip.mbx ch.val
    let only := fun (i : Instr) (b1 : Mbx) => exec i s = .next { s with chip := s.chip.setMbx ch.val b1 }
    let row : Instr := .mbxCmdDataWrite ch w
    let cmd : Cmd := ⟨ch.val, bits w0.toNat 59 52, bits w0.toNat 51 50, bit w0.toNat 49, bits w0.toNat 47 32, bits w0.toNat 31 16, []⟩
    let resync := fun (b1 : Mbx) => exec (.mbxResync ch w) s = .next { s with chip := { s.chip.setMbx ch.val b1 with
      queues := { s.chip.queues with waiting := s.chip.queues.waiting.filter fun e => e.ready || e.cmd.chain != ch.val } } }
    (b.accept = false ∨ b.framing = true ∨ s.chip.mbxFree ch.val = 0 → exec row s = .next s)
    ∧ (b.accept = true → b.framing = false → s.chip.mbxFree ch.val ≠ 0 →
      (b.partialWords = [] → bits w.toNat 63 60 = 0xC → only row { b with partialWords := [w] })
      ∧ (b.partialWords = [] → b.rseq < 65536 → bits w.toNat 63 60 ≠ 0xC → answers row s fun u => u.mem = s.mem ∧ u.pending = s.pending
          ∧ (u.chip.mbx ch.val).framing = true ∧ (u.chip.mbx ch.val).partialWords = []
          ∧ (u.chip.mbx (1 - ch.val)) = s.chip.mbx (1 - ch.val) ∧ u.chip.regs = s.chip.regs
          ∧ ∃ h0 h1 : Word, (u.chip.mbx ch.val).rspQ = b.rspQ ++ [[h0, h1]] ∧ bits h0.toNat 63 60 = 0xA ∧ bits h0.toNat 55 48 = St.framing)
      ∧ (b.partialWords = [w0] → w = 0#64 → b.judge w0 w = some true → (cmdSpec (bits w0.toNat 59 52)).isSome = true →
          (∀ e ∈ b.early, e.1 ≠ cmd.cseq) → s.chip.waits cmd = false →
          ∃ before later, s.chip.queues.waiting = before ++ later
            ∧ (∀ e ∈ before, e.cycle < s.chip.hubEdges ∨ (e.cycle = s.chip.hubEdges ∧ e.cmd.chain ≤ ch.val))
            ∧ (∀ e, later.head? = some e → s.chip.hubEdges < e.cycle ∨ (e.cycle = s.chip.hubEdges ∧ ch.val < e.cmd.chain))
            ∧ exec row s = .next { s with chip := { s.chip.setMbx ch.val
                { b with partialWords := [], partialDup := false, expValid := true, expect := (cmd.cseq + 1) % 65536,
                         history := lastN 64 (b.history ++ [⟨cmd.cseq, cmd.op, cmd.part, cmd.mod, none⟩]) } with
                queues := { s.chip.queues with waiting := before ++ [⟨cmd, s.chip.hubEdges, true, false⟩] ++ later } } }))
    ∧ (bit w.toNat 0 = true → (b.partialDup = true ∨ b.partialWords.length < 2 →
          resync { b with notifyEn := bit w.toNat 8, partialWords := [], partialDup := false, framing := false, expValid := false })
      ∧ ∀ h0 h1 l, b.partialWords = h0 :: h1 :: l → b.partialDup = false →
          let mine := bits h0.toNat 31 16
          resync { b with notifyEn := bit w.toNat 8, partialWords := [], framing := false, expValid := false,
                                          history := b.history.map (fun h => if h.cseq = mine ∧ h.answer = none
                                            then { h with answer := some (St.aborted, none) } else h),
                                          early := b.early.filter fun e => e.1 != mine })

/-- R409, R410, R423 to R425: words of a response leave in order; a read while none is posted changes nothing; moving back by one gives the popped
word again; events leave in order, and a drop is reported by EV004 with the next ESEQ; a NOTIFY frame that is due joins the up-port's frames. -/
def Sys2Proof.Claims.ResponseAndEventWordsLeaveInOrder : Prop :=
  ∀ (s : State) (ch : Fin 2), let b := s.chip.mbx ch.val
    (b.rspQ = [] → exec (.mbxRspDataRead ch) s = .next s)
    ∧ (∀ w t r, b.rspQ = (w :: t) :: r → b.mid = false → answers (.mbxRspDataRead ch) s fun u => u.mem = s.mem ∧ u.pending = s.pending
        ∧ u.chip = s.chip.setMbx ch.val (u.chip.mbx ch.val)
        ∧ (let y := u.chip.mbx ch.val
           y.rspQ = (if t = [] then r else t :: r) ∧ y.kept = [w] ∧ y.widx = 1 ∧ y.curHead = w ∧ y.mid = !t.isEmpty
            ∧ y.evtQ = b.evtQ)
        ∧ ∀ k : Word, bits k.toNat 12 0 = 1 → answers (.mbxRspBack ch k) u fun v => v.mem = s.mem ∧ v.pending = s.pending
            ∧ v.chip = u.chip.setMbx ch.val (v.chip.mbx ch.val) ∧ (v.chip.mbx ch.val).rspQ = b.rspQ
            ∧ (v.chip.mbx ch.val).kept = [] ∧ (v.chip.mbx ch.val).widx = 0 ∧ (v.chip.mbx ch.val).mid = false)
    ∧ (b.evtQ = [] → exec (.mbxEvtDataRead ch) s = .next s)
    ∧ (∀ w r, b.evtQ = w :: r → b.evtQ.length ≤ 4096 → answers (.mbxEvtDataRead ch) s fun u => u.mem = s.mem ∧ u.pending = s.pending
        ∧ u.chip = s.chip.setMbx ch.val (u.chip.mbx ch.val) ∧ (u.chip.mbx ch.val).dropped = 0 ∧ (u.chip.mbx ch.val).rspQ = b.rspQ
        ∧ (u.chip.mbx ch.val).evtQ = r ++ (if b.dropped = 0 then [] else
            [wNat (0xE * 2 ^ 60 + 4 * 2 ^ 51 + b.eseq * 2 ^ 32 + min b.dropped 8191)])
        ∧ (u.chip.mbx ch.val).eseq = (if b.dropped = 0 then b.eseq else (b.eseq + 1) % 65536))
    ∧ (b.notify = true → b.notifyEn = true → s.chip.addr ch.val ≠ 0x3F → (∀ t, b.lastNotify = some t → t + 10000 ≤ s.chip.now) →
        answers (.notifySend ch) s fun u => u.mem = s.mem ∧ u.pending = s.pending
        ∧ (u.chip.mbx ch.val) = { b with notify := false, lastNotify := some s.chip.now }
        ∧ ∃ f : Frame, f.typ = 0xD ∧ f.dst = 0 ∧ f.data = []
          ∧ (u.chip.port (2 * ch.val)) = { s.chip.port (2 * ch.val) with waiting := (s.chip.port (2 * ch.val)).waiting ++ [⟨f, true, true⟩] })

/-- R404, R405, R406, R408: a word of a mailbox that does not accept, has lost its framing or is full changes nothing; a first word with MARK 0xC is
kept; any other loses the framing, which is answered with ST_FRAMING; the second word of a new header with LEN 0 completes the command, which joins
the queues in order of arrival, chain A first within a cycle (R412), and EXPECT names the next CSEQ; RESYNC drops a partly received command and clears FRAMING and EXP_VALID; that the abandoned
command's CSEQ then stands in the history with ST_ABORTED is the model's choice (log 63). R409, R410, R423 to R425: words of a response leave in
order; a read while none is posted changes nothing; moving back by one gives the popped word again; events leave in order, and a drop is reported by
EV004 with the next ESEQ; a NOTIFY frame that is due joins the up-port's frames. -/
def Obligations.MailboxWordsEnterAndLeaveInOrder : Prop := CommandWordsAreFramed ∧ ResponseAndEventWordsLeaveInOrder

/-! ## Kongerax link (chapter 14) -/

/-- R378 to R380, R382: a frame in sequence that the port may route is accepted and RX_EXPECT advances; one with a wrong CRC is counted, answered
by a LINK frame with NAK for RX_EXPECT, and not accepted; that its place is freed is the model's choice (log 83); a LINK frame returns the credits of
the frames that the partner has freed and is not accepted as a frame. -/
def Sys2Proof.Claims.PortsReceiveInSequence : Prop :=
  ∀ (s : State) (p : Fin 4) (f : Frame), let x := s.chip.port p.val
    let e := s.chip.lnk p.val F.LNK_STAT_RX_EXPECT
    s.chip.portUp p.val = true →
    (f.crc = frameCrc f → f.typ ≠ 0 → f.seq = e → f.nak = false → x.retry = [] → x.held = [] → x.taken = [] →
      s.chip.occupied p.val < 32 → s.chip.routeAct p.val f ≠ .discard → answers (.frameReceive p f) s fun u => portOnly s u p.val
        ∧ u.chip.port p.val = { x with taken := [f] }
        ∧ u.chip.lnk p.val F.LNK_STAT_RX_EXPECT = (e + 1) % 4096 ∧ u.chip.reg (R.LNK_ERR p.val) = s.chip.reg (R.LNK_ERR p.val))
    ∧ (f.crc ≠ frameCrc f → answers (.frameReceive p f) s fun u => u.mem = s.mem ∧ u.pending = s.pending
        ∧ (u.chip.port p.val).taken = x.taken ∧ (u.chip.port p.val).held = x.held ∧ (u.chip.port p.val).retry = x.retry
        ∧ u.chip.fld (R.LNK_ERR p.val) F.LNK_ERR_CRC = satAdd (s.chip.fld (R.LNK_ERR p.val) F.LNK_ERR_CRC) 1 65535
        ∧ u.chip.reg (R.LNK_STAT p.val) = s.chip.reg (R.LNK_STAT p.val)
        ∧ (u.chip.port p.val).freed = (if f.typ = 0 then x.freed else (x.freed + 1) % 65536)
        ∧ (x.nak = none → x.restarted = false → ∃ g, (u.chip.port p.val).linkSent = some g ∧ g.typ = 0 ∧ g.nak = true ∧ g.ack = e
            ∧ g.seq = s.chip.lnk p.val F.LNK_STAT_TX_NEXT ∧ g.crc = frameCrc g))
    ∧ (f.typ = 0 → f.crc = frameCrc f → f.nak = false → x.retry = [] → answers (.link p f) s fun u => portOnly s u p.val
        ∧ u.chip.port p.val = { x with seen := bits f.h1.toNat 15 0 }
        ∧ u.chip.lnk p.val F.LNK_STAT_CREDITS
            = min 32 (s.chip.lnk p.val F.LNK_STAT_CREDITS + (bits f.h1.toNat 15 0 + 65536 - x.seen) % 65536))

/-- R375 to R377, R379 to R383: a new frame takes the next SEQ, a credit and a place in the retry buffer, and its blocks go to the lanes; a
relayed one leaves the receive buffer of the chain's other port; a frame due again goes before it; 2,048 block times without an acknowledgement
make the oldest frame due; a LINK frame reports what has been freed; every 16,384 block times an alignment block leaves on each lane. -/
def Sys2Proof.Claims.PortsSendAndRetransmit : Prop :=
  ∀ (s : State) (p : Fin 4), let x := s.chip.port p.val
    let cr := s.chip.lnk p.val F.LNK_STAT_CREDITS
    let seq := s.chip.lnk p.val F.LNK_STAT_TX_NEXT
    (s.chip.portUp p.val = true → 0 < cr → (∀ e ∈ x.retry, e.due = false) → x.retry.length < 64 → ∀ o r, x.waiting = o :: r →
      s.chip.sendable p.val o = true → x.period = s.chip.periodOf p.val → x.blocks + frameBlocks o.frame ≤ 884 →
      answers (.frameTransmit p) s fun u => u.mem = s.mem ∧ u.pending = s.pending
        ∧ u.chip = { s.chip with regs := u.chip.regs, ports := u.chip.ports }
        ∧ (∀ a, a ≠ R.LNK_STAT p.val → u.chip.reg a = s.chip.reg a)
        ∧ (∀ q, q ≠ p.val → let y := s.chip.port q
            u.chip.port q = if o.own = false ∧ q = (if p.val % 2 = 0 then p.val + 1 else p.val - 1)
              then { y with freed := (y.freed + 1) % 65536, freeAt := some (y.freeAt.getD s.chip.now) } else y)
        ∧ u.chip.lnk p.val F.LNK_STAT_CREDITS = cr - 1 ∧ u.chip.lnk p.val F.LNK_STAT_TX_NEXT = (seq + 1) % 4096
        ∧ (u.chip.port p.val).waiting = r ∧ (u.chip.port p.val).blocks = x.blocks + frameBlocks o.frame
        ∧ ∃ g, (u.chip.port p.val).retry = x.retry ++ [⟨g, 1, false⟩] ∧ g.seq = seq ∧ g.crc = frameCrc g ∧ g.typ = o.frame.typ
          ∧ g.data = o.frame.data ∧ g.h1 = o.frame.h1 ∧ g.dst = o.frame.dst ∧ (o.own = false → g.src = o.frame.src)
          ∧ (u.chip.port p.val).line = (dealBlocks (s.chip.scramblers p.val) (blocksOf g)).1)
    ∧ (s.chip.portUp p.val = true → 0 < cr → ∀ e r, x.retry = e :: r → e.due = true → (∀ k ∈ r, k.frame.seq ≠ e.frame.seq) →
      answers (.frameTransmit p) s fun u => portOnly s u p.val ∧ (u.chip.port p.val).waiting = x.waiting
        ∧ u.chip.lnk p.val F.LNK_STAT_CREDITS = cr - 1
        ∧ u.chip.fld (R.LNK_ERR p.val) F.LNK_ERR_RETX = satAdd (s.chip.fld (R.LNK_ERR p.val) F.LNK_ERR_RETX) 1 65535
        ∧ ∃ g, (u.chip.port p.val).retry = ⟨g, e.sends + 1, false⟩ :: r ∧ g.seq = e.frame.seq ∧ g.data = e.frame.data ∧ g.crc = frameCrc g)
    ∧ (s.chip.portUp p.val = true → s.chip.blocksPassed x.lastAck 2048 = true → ∀ e r, x.retry = e :: r → e.sends < 8 →
      exec (.retransmitTimeout p) s
        = .next { s with chip := s.chip.setPort p.val { x with retry := ⟨e.frame, e.sends, true⟩ :: r, lastAck := s.chip.now } })
    ∧ (s.chip.linkDue p.val = true → answers (.linkFrameSend p) s fun u => portOnly s u p.val ∧ u.chip.regs = s.chip.regs
        ∧ (let y := u.chip.port p.val
           y = { x with reported := x.freed, freeAt := none, lastReport := s.chip.now, ackDue := false, linkSent := y.linkSent,
                        line := y.line, scram := y.scram, lineAt := some s.chip.now }
            ∧ ∃ g, y.linkSent = some g ∧ g.typ = 0 ∧ g.nak = false ∧ g.h1 = wNat x.freed ∧ g.crc = frameCrc g
              ∧ (x.restarted = false → g.seq = seq ∧ g.ack = s.chip.lnk p.val F.LNK_STAT_RX_EXPECT)
              ∧ y.line = (dealBlocks (s.chip.scramblers p.val) (blocksOf g)).1))
    ∧ (s.chip.powered = true → x.alignAt + 16384 ≤ blockTimes s.chip.now → answers (.alignmentBlock p) s fun u => portOnly s u p.val
        ∧ u.chip.regs = s.chip.regs
        ∧ (let y := u.chip.port p.val
           y = { x with align := (x.align + 1) % 2 ^ 48, alignAt := y.alignAt, line := y.line, scram := y.scram, lineAt := some s.chip.now }
            ∧ y.alignAt ≤ blockTimes s.chip.now ∧ blockTimes s.chip.now < y.alignAt + 16384
            ∧ y.line = (dealBlocks (s.chip.scramblers p.val) ((List.range 4).map fun k =>
                ⟨true, 0x4B + k * 2 ^ 8 + 0xA * 2 ^ 12 + x.align % 2 ^ 48 * 2 ^ 16⟩)).1))
    ∧ (blockTimes s.chip.now < x.alignAt + 16384 → exec (.alignmentBlock p) s = .next s)

/-- R375: a receiver's descrambler undoes the scrambler, from any common state, and ends in the same state. -/
def Sys2Proof.Claims.DescramblingUndoesScrambling : Prop :=
  ∀ st w : Nat, st < 2 ^ 58 → w < 2 ^ 64 → (scramble st w).1 < 2 ^ 64 ∧ descramble st (scramble st w).1 = (w, (scramble st w).2)

/-- R378 to R380, R382: a frame in sequence that the port may route is accepted and RX_EXPECT advances; one with a wrong CRC is counted, answered by a
NAK, and not accepted; a LINK frame returns the credits of the frames that the partner has freed and is not accepted as a frame. R375 to R377, R379 to
R383: a new frame takes the next SEQ, a credit and a place in the retry buffer, and its blocks go to the lanes; a frame due again goes before it; an
acknowledgement that does not advance makes the oldest frame due; a LINK frame reports what has been freed; alignment blocks leave on every lane; the
descrambler undoes the scrambler. -/
def Obligations.PortsMoveFramesInSequence : Prop := PortsReceiveInSequence ∧ PortsSendAndRetransmit ∧ DescramblingUndoesScrambling

/-- Table 14.6, R382, R385 to R394: the oldest accepted frame that is applied leaves the receive buffer and counts as freed; a read answers the register's word, a write to
MBX_CMD_CTRL acts on the mailbox, a repeat write appends its words, a repeat read while nothing is posted gives not-ready words, SYNC returns
its token, an offered address is taken and answered, UNASSIGN clears it and the answers still owed wait (R390), and any other frame goes to the
other port, where it is freed when it has been sent. -/
def Obligations.RequestFramesAreServed : Prop :=
  ∀ (s : State) (ch : Fin 2) (f : Frame), let p := 2 * ch.val
    let x := s.chip.port p
    let own := s.chip.addr ch.val
    let a := f.h1.toNat % 2 ^ 48
    let served := fun (u : State) (out : List Frame) => u.mem = s.mem ∧ u.pending = s.pending
      ∧ u.chip.port p = { x with taken := [], freed := (x.freed + 1) % 65536, freeAt := some (x.freeAt.getD s.chip.now),
                                 waiting := x.waiting ++ out.map fun g => ⟨g, true, true⟩ }
    let reply := fun (typ : Nat) (h1 : Word) (data : List Word) => newFrame typ 0 0x3F f.tag h1 data
    let rdata := fun (data : List Word) => reply 5 (wNat a) data
    x.taken = [f] → f.src = 0 →
    (f.dst = own →
      (f.typ = 1 → f.data = [] → f.h1.toNat < 2 ^ 48 → a % 8 = 0 → a / 2 ^ 44 = 7 → ∀ d die i k, regDecode a = some (d, die, i, k) →
        s.chip.powerRefused die d.block true = false → d.block ≠ 0x04 → d.block ≠ 0x02 →
        answers (.rd ch f) s fun u => served u [rdata [s.chip.readReg a]] ∧ u.chip = { s.chip with ports := u.chip.ports })
      ∧ (f.typ = 2 → ∀ w, f.data = [w] → f.h1.toNat = R.MBX_CMD_CTRL ch.val →
        answers (.wr ch f) s fun u => served u [] ∧ u.chip = { s.chip.mbxCtrl ch.val w with ports := u.chip.ports })
      ∧ (f.typ = 3 → ∀ w, f.data = [w] → f.h1.toNat = R.MBX_CMD_DATA ch.val → (s.chip.mbxWrite ch.val w).2 = true →
        answers (.rw ch f) s fun u => served u [] ∧ u.chip = { (s.chip.mbxWrite ch.val w).1 with ports := u.chip.ports })
      ∧ (f.typ = 4 → f.data = [] → f.h1.toNat = 2 * 2 ^ 48 + R.MBX_RSP_DATA ch.val → (s.chip.mbx ch.val).rspQ = [] →
        answers (.rr ch f) s fun u => served u [rdata [notReady, notReady]] ∧ u.chip = { s.chip with ports := u.chip.ports })
      ∧ (f.typ = 7 → f.data = [] → answers (.sync ch f) s fun u => served u [reply 8 f.h1 []] ∧ u.chip = { s.chip with ports := u.chip.ports }))
    ∧ (f.dst = 0x3F → own = 0x3F → f.typ = 9 → 1 ≤ bits f.h1.toNat 5 0 → bits f.h1.toNat 5 0 ≤ 0x3D →
        answers (.enum ch f) s fun u => u.mem = s.mem ∧ u.pending = s.pending ∧ u.chip.addr ch.val = bits f.h1.toNat 5 0
          ∧ u.chip.addr (1 - ch.val) = s.chip.addr (1 - ch.val) ∧ (u.chip.port p).taken = []
          ∧ ∃ w2, (u.chip.port p).waiting = x.waiting ++ [⟨reply 0xA 0#64
              [wNat s.chip.fuses.serial, wNat (s.chip.fuses.serial / 2 ^ 64), w2], true, false⟩])
    ∧ (f.dst = 0x3E → own ≠ 0x3E → f.typ = 0xB → s.chip.downOk ch.val = true → answers (.unassign ch f) s fun u =>
        u.mem = s.mem ∧ u.pending = s.pending ∧ u.chip.addr ch.val = 0x3F ∧ u.chip.addr (1 - ch.val) = s.chip.addr (1 - ch.val)
        ∧ (u.chip.port p).taken = []
        ∧ (u.chip.port p).waiting = x.waiting.map (fun o => if o.own then { o with hold := true } else o)
        ∧ (u.chip.port (p + 1)).waiting = (s.chip.port (p + 1)).waiting ++ [⟨f, false, false⟩])
    ∧ (f.dst ≠ own → 1 ≤ f.dst → f.dst ≤ 0x3D → 1 ≤ f.typ → f.typ ≤ 0xD → s.chip.downOk ch.val = true → ∀ q : Fin 4, q.val = p →
        answers (.frameRelay q f) s fun u => u.mem = s.mem ∧ u.pending = s.pending ∧ u.chip.port p = { x with taken := [] } ∧ u.chip = { s.chip with ports := u.chip.ports }
          ∧ u.chip.port (p + 1) = { s.chip.port (p + 1) with waiting := (s.chip.port (p + 1)).waiting ++ [⟨f, false, false⟩] })

/-- R376, R396, R397, R401: a port steps through its training, lane by lane, begins INIT with a LINK frame once all lanes are locked and aligned, and comes UP at INIT, in a fresh numbering when either end has lost its buffer; a retraining keeps the
retry buffer and drops held frames; a port down for 1 s discards the buffer and restarts its numbering; DOWN_EN 0 holds a down-port. -/
def Obligations.PortsTrainAndRetrain : Prop :=
  ∀ (s : State) (p : Fin 4), let x := s.chip.port p.val
    let st := fun (u : State) => u.chip.lnk p.val F.LNK_STAT_STATE
    let locks := fun (u : State) => u.chip.lnk p.val F.LNK_STAT_LANE_LOCK
    let ev := fun (u : State) => u.chip.faults.evFlight = s.chip.faults.evFlight ++ [132 + 2 * p.val]
    let rest := fun (u : State) => u.mem = s.mem ∧ u.pending = s.pending ∧ ∀ q, q ≠ p.val → u.chip.port q = s.chip.port q
    (s.chip.powered = true → s.chip.portHeld p.val = false →
      (st s = 0 → answers (.portTraining p .signal) s fun u => rest u ∧ st u = 1 ∧ u.chip.port p.val = x)
      ∧ (st s = 1 → answers (.portTraining p .trained) s fun u => rest u ∧ st u = 2 ∧ u.chip.port p.val = x)
      ∧ (st s = 2 → ∀ k, answers (.portTraining p (.laneLock k)) s fun u => rest u ∧ st u = 2 ∧ u.chip.port p.val = x
          ∧ ∀ j < 4, bit (locks u) j = (bit (locks s) j || j == k.val))
      ∧ (st s = 2 → ∀ a b, (locks s = 0xF ∧ alignedOn a b = true → answers (.portTraining p (.aligned a b)) s fun u => rest u ∧ st u = 3
            ∧ u.chip.portUp p.val = false ∧ (u.chip.port p.val).retry = x.retry
            ∧ ∃ g, (u.chip.port p.val).linkSent = some g ∧ g.typ = 0
              ∧ (if x.restarted then g.seq = 0xFFF ∧ g.ack = 0xFFF
                 else g.seq = s.chip.lnk p.val F.LNK_STAT_TX_NEXT ∧ g.ack = s.chip.lnk p.val F.LNK_STAT_RX_EXPECT))
          ∧ (locks s ≠ 0xF ∨ alignedOn a b = false → exec (.portTraining p (.aligned a b)) s = .next s))
      ∧ (st s = 3 → x.restarted = true → ∀ r q, answers (.portTraining p (.init r q)) s fun u => rest u ∧ st u = 4 ∧ ev u
          ∧ u.chip.portUp p.val = true ∧ (u.chip.port p.val).retry = []
          ∧ u.chip.lnk p.val F.LNK_STAT_TX_NEXT = 0 ∧ u.chip.lnk p.val F.LNK_STAT_RX_EXPECT = 0 ∧ u.chip.lnk p.val F.LNK_STAT_CREDITS = 32))
    ∧ (s.chip.portHeld p.val = false → ∀ lock, answers (.portRetrain p lock) s fun u => rest u ∧ st u = 1 ∧ ev u
        ∧ u.chip.portUp p.val = false ∧ (u.chip.port p.val).retry = x.retry ∧ (u.chip.port p.val).held = []
        ∧ (u.chip.port p.val).waiting = x.waiting
        ∧ u.chip.lnk p.val F.LNK_STAT_RX_EXPECT = s.chip.lnk p.val F.LNK_STAT_RX_EXPECT
        ∧ u.chip.lnk p.val F.LNK_STAT_TX_NEXT = s.chip.lnk p.val F.LNK_STAT_TX_NEXT
        ∧ u.chip.lnk p.val F.LNK_STAT_CREDITS = s.chip.lnk p.val F.LNK_STAT_CREDITS
        ∧ u.chip.lnk p.val F.LNK_STAT_RETRAINS = satAdd (s.chip.lnk p.val F.LNK_STAT_RETRAINS) 1 255)
    ∧ (∀ t, x.downSince = some t → t + 1000000000 ≤ s.chip.now → s.chip.portUp p.val = false → x.restarted = false →
        answers (.retryBufferDiscard p) s fun u => rest u ∧ ev u ∧ u.chip.port p.val = { x with retry := [], restarted := true }
        ∧ u.chip.fld (R.LNK_ERR p.val) F.LNK_ERR_LOST_BUF = satAdd (s.chip.fld (R.LNK_ERR p.val) F.LNK_ERR_LOST_BUF) 1 255
        ∧ u.chip.lnk p.val F.LNK_STAT_TX_NEXT = 0 ∧ u.chip.lnk p.val F.LNK_STAT_RX_EXPECT = 0 ∧ u.chip.lnk p.val F.LNK_STAT_CREDITS = 32)
    ∧ (s.chip.portHeld p.val = false → p.val % 2 = 1 → answers (.lnkCtrlDownEnWrite p false) s fun u => rest u ∧ st u = 5 ∧ ev u
        ∧ u.chip.portUp p.val = false ∧ u.chip.portHeld p.val = true ∧ (u.chip.port p.val).retry = x.retry ∧ (u.chip.port p.val).held = [])
    ∧ (s.chip.portHeld p.val = true → answers (.lnkCtrlDownEnWrite p true) s fun u => rest u ∧ st u = 1 ∧ ev u
        ∧ u.chip.portHeld p.val = false ∧ u.chip.port p.val = x)

namespace Sys2Proof.Claims

/-- A command that one response answers: its numbers and those of the mailbox lie in their fields, and no duplicate of the command waits for its
answer. -/
def posts (s : State) (c : Cmd) (op : Nat) : Prop :=
  c.op = op ∧ c.chain < 2 ∧ c.part < 4 ∧ (s.chip.mbx c.chain).rseq < 65536 ∧ ∀ d ∈ (s.chip.mbx c.chain).dupWait, d.cseq ≠ c.cseq

/-- A command that Badger takes now: it serves the chain, and the command is the next of the queues (R412). -/
def taken (s : State) (c : Cmd) (op : Nat) : Prop := posts s c op ∧ (s.chip.turn c).2 = true

/-- A command that is taken now and passes the checks of R47 steps 1 to 6. -/
def passes (s : State) (c : Cmd) (op : Nat) : Prop := taken s c op ∧ s.chip.check op c = none

/-- Exactly one response joins the queue of the command's chain (Table 15.3): its status, its data, and the mode that it reports. -/
def replied (s u : State) (c : Cmd) (status : Nat) (data : List Word) : Prop :=
  u.pending = s.pending ∧ u.chip.mbx (1 - c.chain) = s.chip.mbx (1 - c.chain)
    ∧ (u.chip.mbx c.chain).evtQ = (s.chip.mbx c.chain).evtQ
    ∧ ∃ w0 w1 : Word, (u.chip.mbx c.chain).rspQ = (s.chip.mbx c.chain).rspQ ++ [[w0, w1] ++ data]
      ∧ bits w0.toNat 63 56 = 0xA0 ∧ bits w0.toNat 55 48 = status ∧ bits w0.toNat 47 32 = c.tag % 2 ^ 16
      ∧ bits w0.toNat 31 16 = (s.chip.mbx c.chain).rseq ∧ bits w0.toNat 15 8 = c.op
      ∧ bits w1.toNat 63 48 = c.cseq % 2 ^ 16 ∧ bits w1.toNat 31 0 = data.length % 2 ^ 32
      ∧ bits w1.toNat 40 38 = (if c.mod then u.chip.moduleMode else u.chip.mode c.part)

/-- No response has been posted. -/
def silent (s u : State) (c : Cmd) : Prop :=
  u.pending = s.pending ∧ (u.chip.mbx c.chain).rspQ = (s.chip.mbx c.chain).rspQ
    ∧ u.chip.mbx (1 - c.chain) = s.chip.mbx (1 - c.chain)

/-- Nothing but the mailboxes and the command queues has moved. -/
def mailOnly (s u : State) : Prop :=
  u.mem = s.mem ∧ u.chip = { s.chip with mbxA := u.chip.mbxA, mbxB := u.chip.mbxB, queues := u.chip.queues }

/-- Nothing but the mailboxes, the command queues and the listed registers has moved. -/
def mailAndRegs (s u : State) (l : List Nat) : Prop :=
  u.mem = s.mem ∧ u.chip = { s.chip with regs := u.chip.regs, mbxA := u.chip.mbxA, mbxB := u.chip.mbxB, queues := u.chip.queues }
    ∧ ∀ a, a ∉ l → u.chip.reg a = s.chip.reg a

/-- The stored word at a key holds `v` with the check bits of its folded address. -/
def wordIs (m : Memory) (key fold v : Nat) : Prop := memWord m key = v ∧ memChk m key = some (codeCheck v fold)

/-- The rows of the command set with their opcodes (Table 15.5). -/
def cmdRows (c : Cmd) : List (Instr × Nat) :=
  [(.cmdIdentify c, 0x01), (.cmdStatus c, 0x02), (.cmdFaultRead c, 0x03), (.cmdFaultClear c [], 0x04),
   (.cmdPartConfig c, 0x10), (.cmdPartStart c, 0x11), (.cmdPartMode c, 0x12), (.cmdTakeover c, 0x13),
   (.cmdJobSubmit c, 0x20), (.cmdJobAbort c, 0x21), (.cmdMemWrite c, 0x30), (.cmdMemRead c, 0x31), (.cmdMemFill c, 0x32),
   (.cmdRetirePage c, 0x33), (.cmdPcSubstitute c, 0x34), (.cmdMapRead c, 0x35), (.bistCoreSelftest c [], 0x40),
   (.bistRawMacro c false, 0x40), (.bistRedundancyRun c, 0x40), (.bistMemoryPattern c [], 0x40), (.cmdInject c, 0x41),
   (.checkbitWindowOpen c, 0x42), (.checkbitWindowClose c, 0x42), (.debugClose c, 0x50), (.debugPassword c, 0x50),
   (.debugNonceRequest c, 0x50), (.debugSignedResponse c, 0x50), (.cmdPowerState c, 0x60), (.cmdReset c, 0x7F)]

end Sys2Proof.Claims

/-! ## Commands (chapters 2 and 15) -/

/-- R47, R412, Table 15.4: a command that fails a check of steps 1 to 6 is answered with that check's status, without data, and changes nothing else;
while Badger does not serve the chain nothing is taken; a command that is not the next one joins its queue, or stays in it. -/
def Sys2Proof.Claims.RefusedAndWaitingCommands : Prop :=
  ∀ (s : State) (c : Cmd) (row : Instr) (op : Nat), (row, op) ∈ cmdRows c →
    (∀ st, taken s c op → s.chip.earlyPassed c = false → s.chip.check op c = some st →
      answers row s fun u => mailOnly s u ∧ replied s u c st [])
    ∧ (c.op = op → c.chain < 2 → s.chip.serving c.chain = false → exec row s = .next s)
    ∧ (c.op = op → c.chain < 2 → s.chip.serving c.chain = true → (s.chip.turn c).2 = false →
        exec row s = .next (if s.chip.waits c then s else { s with chip := s.chip.enqueue c true false }))

/-- R37, R412: the command that is taken is the oldest of its queue, whose turn it is: no queue between the one served last and its own has a command to
give. It leaves its queue, which then counts as served last, and every other command waits on in its order. -/
def Sys2Proof.Claims.QueuesServeInTurn : Prop :=
  ∀ (x : Chip) (c : Cmd), x.queues.last < 5 → x.waits c = true → (x.turn c).2 = true →
    let after := fun (q : Nat) => (q + 4 - x.queues.last) % 5
    (∀ q < 5, after q < after (queueOf c) → x.headOf q = none)
      ∧ ∃ pre e post, x.queues.waiting = pre ++ e :: post ∧ e.cmd = c ∧ e.ready = true ∧ (∀ a ∈ pre, queueOf a.cmd ≠ queueOf c)
        ∧ (x.turn c).1 = { x with queues := ⟨pre ++ post, queueOf c⟩ }

/-- R47, R412, Table 15.4: a command that fails a check of steps 1 to 6 is answered with that check's status, without data, and changes nothing else;
while Badger does not serve the chain nothing is taken. R37, R412: a command that is not the next one joins its queue, or stays in it; the queues are
served in turn, each in its order of arrival. -/
def Obligations.RefusedCommandsAreOnlyAnswered : Prop := RefusedAndWaitingCommands ∧ QueuesServeInTurn

/-- R2, R371, R372, R411, R418, R529, Table 15.5: what the reporting commands answer, and that nothing else moves: identity; the mode words of the
partitions; a partition's control and status with its job counts and its completed handles, which an acknowledgement removes; a re-read entry of the management
view with its GEN incremented; a fault record; the entries of the retirement map and of the repeat-correct table. -/
def Obligations.QueriesReportState : Prop :=
  ∀ (s : State) (c : Cmd), let x := s.chip
    (passes s c 0x01 → answers (.cmdIdentify c) s fun u => mailOnly s u ∧ replied s u c 0
      [0x4D2D30343631584B#64, wNat (0x2D38 + x.fuses.variant * 2 ^ 16), wNat x.fuses.serial, wNat (x.fuses.serial / 2 ^ 64), x.mgmt.release,
       wNat (x.pins.slotId * 2 ^ 16 + x.addr (1 - c.chain) * 2 ^ 8 + x.addr c.chain)])
    ∧ (passes s c 0x02 → bit (c.p 0) 63 = false → c.mod = true → answers (.cmdStatus c) s fun u => mailOnly s u
        ∧ replied s u c 0 [x.reg (R.PAR_STATUS 0), x.reg (R.PAR_STATUS 1), x.reg (R.PAR_STATUS 2), x.reg (R.PAR_STATUS 3),
            wNat (b2n x.faults.hbArmed * 32 + x.fld R.HUB_BOOT_STAT F.HUB_BOOT_STAT_READY * 16 + b2n x.faults.halted * 8 + x.pState)])
    ∧ (passes s c 0x02 → bit (c.p 0) 63 = false → c.mod = false → let k := doneKey c.part c.chain
        let d := mget ({} : DoneList) x.mgmt.done k
        let hs := if bit (c.p 0) 62 then d.handles.filter fun h => !d.listed.contains h else d.handles
        answers (.cmdStatus c) s fun u => u.mem = s.mem
          ∧ u.chip = { x with mbxA := u.chip.mbxA, mbxB := u.chip.mbxB, queues := u.chip.queues, mgmt := { x.mgmt with done := u.chip.mgmt.done } }
          ∧ replied s u c 0 ([x.reg (R.PAR_CTRL c.part), x.reg (R.PAR_STATUS c.part),
              wNat (b2n d.dropped * 2 ^ 63 + x.queuedJobs c.part * 2 ^ 32 + x.runningJobs c.part)] ++ (hs.take 64).map wNat)
          ∧ mget ({} : DoneList) u.chip.mgmt.done k = ⟨hs, false, hs.take 64⟩
          ∧ ∀ j, j ≠ k → mget ({} : DoneList) u.chip.mgmt.done j = mget {} x.mgmt.done j)
    ∧ (passes s c 0x02 → bit (c.p 0) 63 = true → ∀ i, c.p 0 % 128 = i → i ≤ 90 →
        let gen := ((x.viewEntry i).2.2.2 + 1) % 65536
        answers (.cmdStatus c) s fun u => u.mem = s.mem ∧ u.chip.regs = x.regs ∧ u.chip.faults.evFlight = x.faults.evFlight ++ [2]
          ∧ mget 0 u.chip.faults.evPar 2 = gen * 65536 + i ∧ (∀ j, j ≠ i → u.chip.viewEntry j = x.viewEntry j)
          ∧ replied s u c 0 [x.readReg (R.FLT_STAT i), x.readReg (R.FLT_INFO i), x.readReg (R.FLT_FENCE i), wNat gen])
    ∧ (passes s c 0x03 → bit (c.p 0) 15 = false → ∀ i, c.p 0 % 32768 = i → i ≤ 90 → let e := x.viewEntry i
        answers (.cmdFaultRead c) s fun u => mailOnly s u
          ∧ replied s u c 0 [e.1, e.2.1, e.2.2.1, x.readReg (R.FLT_TIME i), x.readReg (R.FLT_COUNT i), wNat e.2.2.2])
    ∧ (passes s c 0x35 → let d := bits (c.p 0) 49 48
        let n := bits (c.p 0) 38 32
        let i := bits (c.p 0) 11 0
        1 ≤ n → n ≤ 64 →
        (bit (c.p 0) 40 = false → i + n ≤ 4096 → answers (.cmdMapRead c) s fun u => mailAndRegs s u [R.RES_RET_IDX d]
          ∧ replied s u c 0 ((List.range n).map (fun j => x.retWord d (i + j)) ++ [wNat (x.dom d).retire.length]))
        ∧ (bit (c.p 0) 40 = true → i + n ≤ 64 → answers (.cmdMapRead c) s fun u => mailAndRegs s u [R.HOG_RCT_IDX d]
          ∧ replied s u c 0 ((List.range n).map (fun j => x.rctWord d (i + j)) ++ [x.readReg (R.HOG_RCT_STAT d)])))

/-- R356, R415, R419, R420: a clear takes VALID, OVF, INJ, INJ_COINCIDENT and FLT_INFO of every record that it names, or of none; a takeover makes the
sender the owner and answers with the one before; a submitted job joins the queue under a new handle; an aborted job has ended with ST_ABORTED and
holds no cluster. -/
def Obligations.OwnersClearTakeOverAndSubmit : Prop :=
  ∀ (s : State) (c : Cmd), let x := s.chip
    (passes s c 0x04 → (∀ i ∈ clearNames c, x.mayClear c.chain i = true) → answers (.cmdFaultClear c []) s fun u =>
        mailAndRegs s u ((clearNames c).map R.FLT_STAT ++ (clearNames c).map R.FLT_INFO) ∧ replied s u c 0 []
          ∧ ∀ i ∈ clearNames c, let f := u.chip.fld (R.FLT_STAT i)
              f F.FLT_STAT_VALID = 0 ∧ f F.FLT_STAT_OVF = 0 ∧ f F.FLT_STAT_INJ = 0 ∧ f F.FLT_STAT_INJ_COINCIDENT = 0
                ∧ f F.FLT_STAT_LOC = x.fld (R.FLT_STAT i) F.FLT_STAT_LOC ∧ u.chip.reg (R.FLT_INFO i) = 0#64)
    ∧ (passes s c 0x04 → (∃ i ∈ clearNames c, x.mayClear c.chain i = false) →
        answers (.cmdFaultClear c []) s fun u => mailOnly s u ∧ replied s u c St.param [])
    ∧ (passes s c 0x13 → answers (.cmdTakeover c) s fun u => u.mem = s.mem
        ∧ u.chip = { x with regs := u.chip.regs, mbxA := u.chip.mbxA, mbxB := u.chip.mbxB, queues := u.chip.queues, faults := u.chip.faults }
        ∧ (∀ a, a ≠ R.PAR_CTRL c.part → u.chip.reg a = x.reg a) ∧ u.chip.owner c.part = c.chain
        ∧ u.chip.faults.evFlight = x.faults.evFlight ++ [3] ∧ mget 0 u.chip.faults.evPar 3 = c.part * 2 + c.chain
        ∧ replied s u c 0 [wNat (x.owner c.part)])
    ∧ (passes s c 0x20 → c.p 0 % 4 = 0 → c.p 1 % 64 = 0 → x.populated c.part (c.p 0) = true → x.populated c.part (c.p 1) = true →
        (x.openHandles c.part).length < 256 →
        let h := c.part * 2 ^ 30 + (mget 0 x.mgmt.nextJob c.part + 1) % 2 ^ 30
        answers (.cmdJobSubmit c) s fun u => u.mem = s.mem ∧ replied s u c 0 [wNat h, wNat (x.queuedJobs c.part)]
          ∧ u.chip = { x with mbxA := u.chip.mbxA, mbxB := u.chip.mbxB, queues := u.chip.queues, mgmt := u.chip.mgmt }
          ∧ (∃ n, u.chip.mgmt = { x.mgmt with jobs := u.chip.mgmt.jobs, nextJob := n })
          ∧ u.chip.mgmt.jobs = x.mgmt.jobs ++
              [{ handle := h, part := c.part, chain := c.chain, tag := c.tag, cseq := c.cseq, entry := c.p 0, pblock := c.p 1 }])
    ∧ (passes s c 0x20 → c.p 0 % 4 ≠ 0 ∨ c.p 1 % 64 ≠ 0 → answers (.cmdJobSubmit c) s fun u => mailOnly s u ∧ replied s u c St.param [])
    ∧ (passes s c 0x21 → ∀ j, x.job (c.p 0) = some j → j.part = c.part → j.ended = none →
        answers (.cmdJobAbort c) s fun u => u.mem = s.mem ∧ replied s u c 0 [] ∧ (∀ n ∈ j.clusters, (u.chip.clu n).job = none)
          ∧ ∃ k, u.chip.job (c.p 0) = some k ∧ k.ended = some ⟨St.aborted, 0#64, 0#64⟩)

/-! ## Partitions (chapter 2) -/

/-- R31 to R33, R41, R42, R45, R303: a configuration writes the partition's settings and its Hedgehogs' parameters, and with EN 0 removes the partition; a start or a mode
request that is accepted sets MODE_REQ and BUSY and is answered at its end, one that is not is answered at once; a transition that nothing holds ends in its
target mode, with BUSY 0, an event and ST_OK, and the self-test of an entry that leaves too few parts in service ends it in the mode before with ST_RESOURCE. -/
def Obligations.PartitionsFormAndChangeMode : Prop :=
  ∀ (s : State), let x := s.chip
    let done := fun (u : State) (p : Nat) (c : Cmd) (mode status code before : Nat) =>
      u.chip.mode p = mode ∧ u.chip.fld (R.PAR_STATUS p) F.PAR_STATUS_BUSY = 0 ∧ mget? u.chip.mgmt.trans p = none
        ∧ (111 + p) ∈ u.chip.faults.evFlight ∧ mget 0 u.chip.faults.evPar (111 + p) = code * 256 + before * 16 + mode
        ∧ replied s u c status [wNat mode]
    let asker := fun (c : Cmd) => c.chain < 2 ∧ c.op < 256 ∧ c.part < 4 ∧ (x.mbx c.chain).rseq < 65536 ∧ c.mod = false
      ∧ ∀ d ∈ (x.mbx c.chain).dupWait, d.cseq ≠ c.cseq
    (∀ c : Cmd, passes s c 0x10 → bit (c.p 0) 60 = true → x.configBad c.part (c.p 0) = false → answers (.cmdPartConfig c) s fun u =>
        u.mem = s.mem ∧ replied s u c 0 []
          ∧ u.chip.reg (R.PAR_CTRL c.part) = wNat (ctrlFields (c.p 0) + fat F.PAR_CTRL_OWNER (if x.parEn c.part then x.owner c.part else c.chain)
              + fat F.PAR_CTRL_MODE_REQ (x.fld (R.PAR_CTRL c.part) F.PAR_CTRL_MODE_REQ))
          ∧ (∀ q, q < 4 → q ≠ c.part → u.chip.reg (R.PAR_CTRL q) = x.reg (R.PAR_CTRL q))
          ∧ ∀ d ∈ u.chip.diesOf c.part, u.chip.fld (R.HOG_CTRL d) F.HOG_CTRL_LAP_LIMIT = bits (c.p 1) 47 32
              ∧ u.chip.fld (R.HOG_CTRL d) F.HOG_CTRL_PCH_SUSPECT = bits (c.p 1) 11 8 ∧ u.chip.fld (R.HOG_CTRL d) F.HOG_CTRL_THRESHOLD = bits (c.p 1) 2 0)
    ∧ (∀ c : Cmd, passes s c 0x10 → bit (c.p 0) 60 = false → x.parEn c.part = true → answers (.cmdPartConfig c) s fun u =>
        u.mem = s.mem ∧ replied s u c 0 [] ∧ u.chip.reg (R.PAR_CTRL c.part) = 0#64 ∧ u.chip.diesOf c.part = [] ∧ u.chip.mode c.part = 0
          ∧ u.chip.sessionOpen c.part = false)
    ∧ (∀ (c : Cmd) (row : Instr) (op : Nat), (row, op) ∈ [(Instr.cmdPartStart c, 0x11), (Instr.cmdPartMode c, 0x12)] → passes s c op →
        let t := c.p 0 % 8
        (∀ st, x.transitionBad c.part t = some st → answers row s fun u => mailOnly s u ∧ replied s u c st [])
        ∧ (x.transitionBad c.part t = none → answers row s fun u => u.mem = s.mem ∧ silent s u c
          ∧ u.chip.fld (R.PAR_CTRL c.part) F.PAR_CTRL_MODE_REQ = t ∧ u.chip.fld (R.PAR_STATUS c.part) F.PAR_STATUS_BUSY = 1
          ∧ u.chip.mode c.part = x.mode c.part
          ∧ mget? u.chip.mgmt.trans c.part = some ⟨some c, x.mode c.part, t, !isSafe t⟩
          ∧ (x.mode c.part = 0 ∨ x.mode c.part = 4 → ∀ d ∈ x.diesOf c.part, u.chip.fld (R.SCR_RAW_CTRL d) F.SCR_RAW_CTRL_EN = 0)))
    ∧ (∀ (p : Fin 4) (t : Transition) (c : Cmd), (x.mgmt.trans.map Prod.fst).Pairwise (· < ·) → mget? x.mgmt.trans p.val = some t →
        t.cmd = some c → c.part = p.val → asker c →
        t.before < 8 → 1 ≤ t.target → t.target ≤ 4 → (∀ n ∈ x.clustersOf p.val, (x.clu n).resync = none) →
        (t.tested = true → answers (.partTransitionDone p) s fun u => done u p.val c t.target 0 0 t.before
          ∧ (isSafe t.target = true → u.chip.faults.hbArmed = true ∧ (x.faults.halted = false → x.parEn p.val = true → u.chip.pins.safeA = true ∧ u.chip.pins.safeB = false)))
        ∧ (t.tested = false → let ctl := x.reg (R.PAR_CTRL p.val)
          let few := x.parClusters p.val < fget ctl F.PAR_CTRL_MIN_CLUSTERS ∨ x.parPairs p.val < fget ctl F.PAR_CTRL_MIN_PAIRS
            ∨ fget ctl F.PAR_CTRL_MAX_FENCED_PCH < x.parPch p.val
          (¬ few → answers (.entrySelfTest p []) s fun u => done u p.val c t.target 0 0 t.before)
          ∧ (few → answers (.entrySelfTest p []) s fun u => u.mem = s.mem ∧ done u p.val c (x.mode p.val) St.resource 2 t.before)))

/-! ## Memory commands (chapters 12 and 15) -/

/-- R335, R413, R421, R422: a memory write that is not answered with an error stores every word with its check bits, where a stored word lies; a read of words that all
answer OKAY returns them with a trailer that counts them; a transfer whose first piece is answered DEFAULT halts there and reports it; a fill is answered
when it is complete, and then every word of its range that a channel serves holds its pattern, and a whole domain or data area is enabled for scrubbing. -/
def Obligations.MemoryCommandsMoveWords : Prop :=
  ∀ (s : State) (c : Cmd), let x := s.chip
    let a := c.p 0
    let ready := fun (n : Nat) => x.freeChannel c.chain ≠ none ∧ x.meetsFill c.part a (8 * n) = false
    let who := dmaWho ((x.freeChannel c.chain).getD 0) c.part false
    let data := c.params.drop 2
    (passes s c 0x30 → x.earlyPassed c = false → (∀ st, x.memWriteCheck c = some st → answers (.cmdMemWrite c) s fun u => mailOnly s u ∧ replied s u c st [])
      ∧ (x.memWriteCheck c = none → ready data.length → x.faults.halted = false →
        ((∀ i < data.length, ∃ k f l, x.route who (a + 8 * i) true = .word k f l ∧ plain x k l) →
          answers (.cmdMemWrite c) s fun u => replied s u c 0 []
            ∧ ∀ i < data.length, ∀ k f l, x.route who (a + 8 * i) true = .word k f l →
                readStored u.chip u.mem k f l = ⟨.okay, (data.getD i 0#64).toNat, some ⟨l, .clean, 0⟩⟩)
        ∧ (∀ e, data ≠ [] → x.route who a true = .deflt e → answers (.cmdMemWrite c) s fun u => replied s u c St.memory [wNat 0, wNat 1]
            ∧ u.chip.flag (R.FAB_DEFERR e) F.FAB_DEFERR_VALID = true)))
    ∧ (passes s c 0x31 → x.memReadBad c = true → answers (.cmdMemRead c) s fun u => mailOnly s u ∧ replied s u c St.param [])
    ∧ (passes s c 0x31 → x.memReadBad c = false → ready (c.p 1) →
      (∀ i < c.p 1, ∃ k f l, x.route who (a + 8 * i) false = .word k f l ∧ plain x k l
        ∧ memChk s.mem k = some (codeCheck (memWord s.mem k) f)) →
      answers (.cmdMemRead c) s fun u => u.mem = s.mem
        ∧ replied s u c 0 ((List.range (c.p 1)).map (fun i => wNat (masterRead x s.mem who (a + 8 * i)).data)
            ++ [wNat (0xB * 2 ^ 60 + c.p 1)])
        ∧ ∀ i < c.p 1, ∀ k f l, x.route who (a + 8 * i) false = .word k f l → (masterRead x s.mem who (a + 8 * i)).data = memWord s.mem k)
    ∧ (passes s c 0x32 → a % 64 = 0 → c.p 1 ≠ 0 → c.p 1 % 8 = 0 → x.memArea c.part a (8 * c.p 1) 0x05E00000 = true →
      (x.longRuns c.part = true → answers (.cmdMemFill c) s fun u => mailOnly s u ∧ replied s u c St.busy [])
      ∧ (x.longRuns c.part = false → answers (.cmdMemFill c) s fun u => u.mem = s.mem ∧ silent s u c
          ∧ u.chip.mgmt = { x.mgmt with
              long := x.mgmt.long ++ [⟨c, if a < 2 ^ 46 then a / 2 ^ 36 else (a - 0x400000000000) / 0x10000000, a, a + 8 * c.p 1⟩] }))
    ∧ ∀ (p : Fin 4) (l : LongCmd), x.fillOf p.val = some l → l.cmd.chain < 2 → l.cmd.op < 256 → l.cmd.part < 4 →
        (x.mbx l.cmd.chain).rseq < 65536 → (∀ d ∈ (x.mbx l.cmd.chain).dupWait, d.cseq ≠ l.cmd.cseq) → l.die < 4 → l.lo % 64 = 0 → l.lo ≤ l.hi →
        answers (.fillComplete p) s fun u => replied s u l.cmd 0 []
          ∧ (∀ i, l.lo + 8 * i < l.hi - 7 → ∀ d off, x.bypass (locate (l.lo + 8 * i)) = none → (∀ k, x.rawAt ≠ some (k, x.now)) →
              (locate (l.lo + 8 * i) = .scratch d off → wordIs u.mem (0x400000000000 + d * 0x10000000 + off) (off / 8) (l.cmd.p 2))
              ∧ (locate (l.lo + 8 * i) = .dram d off → x.pageRetired d (off / 65536) = false → ∀ n, x.physOf d (chanOf off) = some n →
                  wordIs u.mem (dramKey d n (localOf off) (off % 64)) (off / 8) (l.cmd.p 2)))
          ∧ (l.lo = l.die * 2 ^ 36 → l.hi = l.lo + 0xB70000000 → u.chip.fld (R.HOG_CTRL l.die) F.HOG_CTRL_DRAM_EN = 1)
          ∧ (l.lo = 0x400000000000 + l.die * 0x10000000 → l.hi = l.lo + 0x05E00000 → u.chip.fld (R.HOG_CTRL l.die) F.HOG_CTRL_SCR_EN = 1)

/-! ## Retirement and substitution (chapter 6) -/

/-- R184, R186, R187, R189: a new page takes the lowest free slot and is recorded in flash: outside the SAFE modes at once, answered ST_OK, and in them as PENDING, answered
when no started job declares it any more; a page already retired is ST_PARAM; the remove form takes the entry out of the map and of the record. -/
def Sys2Proof.Claims.PagesRetireAndReturn : Prop :=
  ∀ (s : State), let x := s.chip
    let pages := fun (u : State) (d : Nat) => mget [] u.chip.flash.pages d
    (∀ c : Cmd, passes s c 0x33 → let d := bits (c.p 0) 49 48
      let page := bits (c.p 0) 19 0
      d ∈ x.diesOf c.part →
      (bit (c.p 0) 63 = false → 749567 < page ∨ (x.pageSlot d page).isSome = true → answers (.cmdRetirePage c) s fun u => mailOnly s u ∧ replied s u c St.param [])
      ∧ (bit (c.p 0) 63 = false → page ≤ 749567 → x.pageSlot d page = none → ∀ i, x.freeSlot d = some i → answers (.cmdRetirePage c) s fun u =>
          u.mem = s.mem ∧ pages u d = pages s d ++ [page] ∧ mget? (u.chip.dom d).retire i = some (page, x.safePart c.part)
          ∧ (∀ j, j ≠ i → mget? (u.chip.dom d).retire j = mget? (x.dom d).retire j)
          ∧ (∀ e, e ≠ d → u.chip.dom e = x.dom e) ∧ (∀ a, a ≠ R.RES_RET_IDX d → u.chip.reg a = x.reg a)
          ∧ (x.safePart c.part = false → u.chip.pageRetired d page = true ∧ replied s u c 0 [])
          ∧ (x.safePart c.part = true → silent s u c ∧ u.chip.mgmt.retireWait = x.mgmt.retireWait ++ [c]))
      ∧ (bit (c.p 0) 63 = false → page ≤ 749567 → x.pageSlot d page = none → x.freeSlot d = none →
          answers (.cmdRetirePage c) s fun u => mailOnly s u ∧ replied s u c St.resource [])
      ∧ (bit (c.p 0) 63 = true → (x.dom d).retire.Pairwise (fun a b => a.1 < b.1 ∧ a.2.1 ≠ b.2.1) → ∀ i, x.pageSlot d page = some i → answers (.cmdRetirePage c) s fun u =>
          replied s u c 0 [] ∧ u.chip.pageSlot d page = none ∧ page ∉ pages u d ∧ (∀ e, e ≠ d → u.chip.dom e = x.dom e)))
    ∧ ∀ (d : Fin 4) (page i : Nat), (x.dom d.val).retire.find? (fun e => e.2 == (page, true)) = some (i, (page, true)) → 
      (x.pageDeclared d.val page = true → exec (.retirePendingClear d page) s = .next s)
      ∧ (x.pageDeclared d.val page = false → answers (.retirePendingClear d page) s fun u => u.mem = s.mem ∧ u.chip.regs = x.regs
          ∧ u.chip.pageRetired d.val page = true
          ∧ (∀ k ∈ u.chip.mgmt.retireWait, ¬ (bits (k.p 0) 49 48 = d.val ∧ bits (k.p 0) 19 0 = page))
          ∧ ∀ c : Cmd, x.mgmt.retireWait = [c] → bits (c.p 0) 49 48 = d.val → bits (c.p 0) 19 0 = page → posts s c 0x33 → replied s u c 0 [])

/-- R172 to R179, R182: a substitution takes the lowest spare; a copy makes the target SOURCE and the spare COPYING, and RES_SUB_CTRL.START does the same; each granule copied
puts its words on the spare, corrected; after the last one, and after the poison fill of a swap-only, the spare serves the logical channel, the target is
RETIRED, the substitution is recorded, the event raised and the command answered; a swapped-in spare reads as uncorrectable. -/
def Sys2Proof.Claims.SubstitutionCopiesAndSwaps : Prop :=
  ∀ (s : State) (d : Fin 4), let x := s.chip
    let st := fun (u : State) (n : Nat) => u.chip.fld (R.RES_PCH d.val n) F.RES_PCH_STATE
    let lg := fun (u : State) (n : Nat) => u.chip.fld (R.RES_PCH d.val n) F.RES_PCH_LOGICAL
    let busy := fun (u : State) => u.chip.fld (R.RES_SUB_STAT d.val) F.RES_SUB_STAT_BUSY
    let y := x.dom d.val
    let begun := fun (u : State) (spare target copy : Nat) (cmd : Option Cmd) => busy u = 1
      ∧ u.chip.fld (R.RES_SUB_STAT d.val) F.RES_SUB_STAT_PROGRESS = 0 ∧ u.chip.fld (R.RES_SUB_STAT d.val) F.RES_SUB_STAT_UCE_COUNT = 0
      ∧ u.chip.dom d.val = { y with subCmd := cmd, subSpare := spare, subTarget := target, subCopy := decide (copy = 1) }
      ∧ (copy = 1 → st u target = 3 ∧ lg u target = lg s target ∧ st u spare = 2 ∧ lg u spare = lg s target)
      ∧ (copy = 0 → st u target = st s target ∧ st u spare = 1)
    let swapped := fun (u : State) => busy u = 0 ∧ u.chip.fld (R.RES_SUB_STAT d.val) F.RES_SUB_STAT_DONE = 1
      ∧ st u y.subTarget = 4 ∧ lg u y.subTarget = 0x3F ∧ st u y.subSpare = 0 ∧ lg u y.subSpare = lg s y.subTarget
      ∧ u.chip.flash.subs = x.flash.subs ++ [(d.val, (y.subTarget, y.subSpare))] ∧ (139 + d.val) ∈ u.chip.faults.evFlight
      ∧ ∀ c : Cmd, y.subCmd = some c → posts s c 0x34 → replied s u c 0 [wNat y.subSpare, wNat (x.fld (R.RES_SUB_STAT d.val) F.RES_SUB_STAT_UCE_COUNT)]
    (∀ c : Cmd, passes s c 0x34 → bits (c.p 0) 49 48 = d.val → d.val ∈ x.diesOf c.part → busy s = 0 → x.longRuns c.part = false →
      let n := bits (c.p 0) 13 8
      let copy := bits (c.p 0) 0 0
      (st s n = 0 ∨ (st s n = 5 ∧ copy = 0 ∧ lg s n ≠ 0x3F)) →
      (∀ k, x.lowSpare d.val = some k → answers (.cmdPcSubstitute c) s fun u => u.mem = s.mem ∧ silent s u c ∧ begun u k n copy (some c)
          ∧ u.chip.mgmt.long = x.mgmt.long ++ [⟨c, d.val, 0, 0⟩])
      ∧ (x.lowSpare d.val = none → answers (.cmdPcSubstitute c) s fun u => mailOnly s u ∧ replied s u c St.resource []))
    ∧ (∀ w : Word, bit w.toNat 0 = true → let v := x.writeMasked (R.RES_SUB_CTRL d.val) w
        let f := fun (g : Fld) => v.fld (R.RES_SUB_CTRL d.val) g
        busy s = 0 → st s (f F.RES_SUB_CTRL_SPARE) = 1 → st s (f F.RES_SUB_CTRL_TARGET) = 0 → answers (.resSubStart d w) s fun u =>
          u.mem = s.mem ∧ begun u (f F.RES_SUB_CTRL_SPARE) (f F.RES_SUB_CTRL_TARGET) (f F.RES_SUB_CTRL_COPY) none)
    ∧ (∀ q, busy s = 1 → y.subCopy = true → x.faults.halted = false → x.fld (R.RES_SUB_STAT d.val) F.RES_SUB_STAT_PROGRESS = q → q < 12582912 →
        y.subTarget < 64 → y.subSpare < 64 → y.subTarget ≠ y.subSpare → st s y.subTarget = 3 → let l := lg s y.subTarget
        (∀ i < 8, x.bypass (.dram d.val (8 * foldOf l q i)) = none
          ∧ memChk s.mem (dramKey d.val y.subTarget q (8 * i)) = some (codeCheck (memWord s.mem (dramKey d.val y.subTarget q (8 * i))) (foldOf l q i))) →
        answers (.substCopyGranule d) s fun u => u.pending = s.pending ∧ u.chip = x.setFld (R.RES_SUB_STAT d.val) F.RES_SUB_STAT_PROGRESS (q + 1)
          ∧ ∀ i < 8, wordIs u.mem (dramKey d.val y.subSpare q (8 * i)) (foldOf l q i) (memWord s.mem (dramKey d.val y.subTarget q (8 * i))))
    ∧ (busy s = 1 → y.subCopy = true → x.fld (R.RES_SUB_STAT d.val) F.RES_SUB_STAT_PROGRESS = 12582912 → y.subTarget < 64 → y.subSpare < 64 →
        y.subTarget ≠ y.subSpare → answers (.substSwap d) s fun u => u.mem = s.mem ∧ swapped u)
    ∧ (busy s = 1 → y.subCopy = false → x.faults.halted = false → y.subTarget < 64 → y.subSpare < 64 → y.subTarget ≠ y.subSpare → st s y.subSpare = 1 →
        answers (.poisonFillDone d) s fun u => swapped u ∧ ∀ q i f, q < 12582912 → i < 8 →
          (readStored u.chip u.mem (dramKey d.val y.subSpare q (8 * i)) f (.dram d.val (8 * f))).resp = .uce)

/-- R184, R186, R187, R189: a new page takes the lowest free slot and is recorded in flash: outside the SAFE modes at once, answered ST_OK, and in
them as PENDING, answered when no started job declares it any more; a page already retired is ST_PARAM; the remove form takes the entry out of the map
and of the record. R172 to R179, R182: a substitution takes the lowest spare; a copy makes the target SOURCE and the spare COPYING, and
RES_SUB_CTRL.START does the same; each granule copied puts its words on the spare, corrected; after the last one, and after the poison fill of a swap-
only, the spare serves the logical channel, the target is RETIRED, the substitution is recorded, the event raised and the command answered; a swapped-
in spare reads as uncorrectable. -/
def Obligations.PagesAndChannelsAreReplaced : Prop := PagesRetireAndReturn ∧ SubstitutionCopiesAndSwaps

/-! ## Maintenance (chapters 11, 12 and 15) -/

/-- R305, R320, R225, Table 15.6: a core self-test that every core passes restarts each named cluster and answers 0; the raw test writes its word with the check bits
given and answers what the registers hold; a redundancy run gives the cluster its job in the configuration that TESTCFG selects and is not yet answered; a pattern test counts the
failing words, names the lowest, and leaves its range unwritten; a second long command is ST_BUSY. -/
def Sys2Proof.Claims.BuiltInTestsRunAndReport : Prop :=
  ∀ (s : State) (c : Cmd), passes s c 0x40 → let x := s.chip
    let test := c.p 0 % 256
    (x.longRuns c.part = true → ∀ row ∈ [Instr.bistCoreSelftest c [], .bistRawMacro c false, .bistRedundancyRun c, .bistMemoryPattern c []],
      answers row s fun u => mailOnly s u ∧ replied s u c St.busy [])
    ∧ (x.longRuns c.part = false →
      (test = 1 → c.p 1 < 2 ^ 48 → (∀ n ∈ onesOf 48 (c.p 1), n ∈ x.clustersOf c.part) → answers (.bistCoreSelftest c []) s fun u =>
        replied s u c 0 [0#64] ∧ ∀ n ∈ onesOf 48 (c.p 1), x.cluFenced n = false →
          (u.chip.clu n).stop = .running ∧ (u.chip.clu n).job = none ∧ (u.chip.clu n).resync = none
            ∧ u.chip.fld (R.FOX_CTRL n) F.FOX_CTRL_ENTRY = execAddr (n / 12) / 4)
      ∧ (test = 2 → let d := bits (c.p 0) 49 48
        d ∈ x.diesOf c.part → let key := 0x400000000000 + d * 0x10000000 + rawOff (wNat (c.p 1))
        bit (c.p 1) 0 = true → bit (c.p 1) 1 = true → x.fld (R.SCR_RAW_CTRL d) F.SCR_RAW_CTRL_EN = 1 → bit (c.p 1) 63 = true →
        bits (c.p 1) 21 16 < 48 → rawOff (wNat (c.p 1)) < 0x05F00000 → answers (.bistRawMacro c false) s fun u =>
          replied s u c 0 [wNat (c.p 2), wNat (2 ^ 63 + c.p 3 % 256)] ∧ u.mem = memPutWord s.mem key (c.p 2) (c.p 3 % 256)
            ∧ u.chip.reg (R.SCR_RAW_DATA d) = wNat (c.p 2))
      ∧ (test = 3 → let d := bits (c.p 1) 49 48
        let k := bits (c.p 1) 43 40
        let n := 12 * d + k
        let h := c.part * 2 ^ 30 + (mget 0 x.mgmt.nextJob c.part + 1) % 2 ^ 30
        let j : Job := { handle := h, part := c.part, chain := c.chain, tag := c.tag, cseq := c.cseq, entry := c.p 3, pblock := c.p 4,
                         clusters := [n], bist := true }
        d ∈ x.diesOf c.part → k < 12 → c.p 3 % 4 = 0 → c.p 4 % 64 = 0 → x.populated c.part (c.p 3) = true → x.populated c.part (c.p 4) = true →
        x.idle n = true → x.job h = none → (∀ head l, readBlock x s.mem (x.execWho c.part) (c.p 4) = .good head l → x.rangesOk c.part j head l = true →
          answers (.bistRedundancyRun c) s fun u => silent s u c ∧ u.chip.fld (R.OWL_CTRL n) F.OWL_CTRL_TESTCFG = c.p 2 % 4
            ∧ (u.chip.clu n).job = some h ∧ u.chip.mgmt.long = x.mgmt.long ++ [⟨c, d, h, 0⟩]
            ∧ ∃ e, u.chip.job h = some e ∧ e.started = true ∧ e.bist = true ∧ e.clusters = [n] ∧ e.ranges = l ∧ e.ended = none))
      ∧ (test = 4 → ∀ fails : List Nat, fails.Nodup → Memory.wf s.mem = true → (∀ i ∈ fails, i < c.p 2) → c.p 1 % 8 = 0 → c.p 2 ≠ 0 →
        x.memArea c.part (c.p 1) (8 * c.p 2) 0x05E00000 = true → answers (.bistMemoryPattern c fails) s fun u =>
          (∃ first : Nat, replied s u c 0 [wNat fails.length, wNat first] ∧ (fails = [] → first = 0)
            ∧ (fails ≠ [] → ∃ i ∈ fails, first = c.p 1 + 8 * i ∧ ∀ j ∈ fails, i ≤ j))
          ∧ ∀ i < c.p 2, ∀ k f l, x.route badgerWho (c.p 1 + 8 * i) true = .word k f l → memChk u.mem k = none))

/-- R319, R346, R348, Tables 11.6 and 12.5: an injection is armed with its point, target and pattern; a bypass window opens on one page with its pattern, with no read noted yet, only
where none is open, and closes. -/
def Sys2Proof.Claims.InjectionsAndWindowsAreSet : Prop :=
  ∀ (s : State) (c : Cmd), let x := s.chip
    let d := bits (c.p 0) 49 48
    let n := 12 * d + bits (c.p 0) 43 40
    (passes s c 0x41 → d ∈ x.diesOf c.part → bits (c.p 0) 43 40 < 12 → 1 ≤ bits (c.p 0) 15 12 → bits (c.p 0) 15 12 ≤ 8 →
      answers (.cmdInject c) s fun u => mailAndRegs s u [R.OWL_INJ n, R.OWL_INJ_PAT n] ∧ replied s u c 0 []
        ∧ u.chip.fld (R.OWL_INJ n) F.OWL_INJ_ARMED = 1 ∧ u.chip.fld (R.OWL_INJ n) F.OWL_INJ_POINT = bits (c.p 0) 15 12
        ∧ u.chip.fld (R.OWL_INJ n) F.OWL_INJ_TARGET = bits (c.p 0) 7 4 ∧ u.chip.reg (R.OWL_INJ_PAT n) = wNat (c.p 1))
    ∧ (passes s c 0x42 → d ∈ x.diesOf c.part → let scr := bit (c.p 0) 62
      let page := bits (c.p 0) 19 0
      (bit (c.p 0) 63 = true → page ≤ (if scr then 1519 else 749567) →
        (x.fld (R.ECC_BP_CTRL d) F.ECC_BP_CTRL_EN = 0 → answers (.checkbitWindowOpen c) s fun u =>
          mailAndRegs s u [R.ECC_BP_CTRL d, R.ECC_BP_CHECK d, R.ECC_BP_SYN d] ∧ replied s u c 0 [] ∧ u.chip.reg (R.ECC_BP_SYN d) = 0#64
            ∧ (∀ off, off / 65536 = page → u.chip.bypass (if scr then .scratch d off else .dram d off) = some (c.p 1 % 256)))
        ∧ (x.fld (R.ECC_BP_CTRL d) F.ECC_BP_CTRL_EN = 1 → answers (.checkbitWindowOpen c) s fun u => mailOnly s u ∧ replied s u c St.resource []))
      ∧ (bit (c.p 0) 63 = false → answers (.checkbitWindowClose c) s fun u => mailAndRegs s u [R.ECC_BP_CTRL d] ∧ replied s u c 0 []
          ∧ ∀ off, u.chip.bypass (.dram d off) = none ∧ u.chip.bypass (.scratch d off) = none))

/-- R305, R320, R225, Table 15.6: a core self-test that every core passes restarts each named cluster and answers 0; the raw test writes its word with
the check bits given and answers what the registers hold; a redundancy run gives the cluster its job in the configuration that TESTCFG selects and is
not yet answered; a pattern test counts the failing words, names the lowest, and leaves its range unwritten; a second long command is ST_BUSY. R319,
R346, R348, Tables 11.6 and 12.5: an injection is armed with its point, target and pattern; a bypass window opens on one page with its pattern, with
no read noted yet, only where none is open, and closes. -/
def Obligations.SelfTestsInjectionsAndWindows : Prop := BuiltInTestsRunAndReport ∧ InjectionsAndWindowsAreSet

/-! ## Debug (chapter 17) -/

/-- R454, R457 to R461, Table 17.7: METHOD 0 closes the session and drops the nonce; an open is refused with ST_AUTH and a reason, of which 1 and 2 count and the eighth locks opens
out for 600 s; a password that matches, or a signature under an admitted key over the valid nonce, opens a session with its level and credential, taking a SAFE partition to MAINTENANCE; a nonce lives 60 s and is used up
by the check; a lockout ends with FAIL_COUNT at 4. -/
def Obligations.DebugSessionsOpenAndClose : Prop :=
  ∀ (s : State) (c : Cmd), let x := s.chip
    let p := c.part
    let method := bits (c.p 0) 9 8
    let level := c.p 0 % 8
    let rows := [Instr.debugClose c, .debugPassword c, .debugNonceRequest c, .debugSignedResponse c]
    let nonce := fun (u : State) => mget? u.chip.sec.nonces p
    let open' := fun (u : State) (cred : Nat) => let f := fun (g : Fld) => u.chip.fld (R.DBG_SESSION p) g
      f F.DBG_SESSION_OPEN = 1 ∧ f F.DBG_SESSION_LEVEL = level ∧ f F.DBG_SESSION_CRED = cred
        ∧ u.chip.fld R.DBG_STAT F.DBG_STAT_FAIL_COUNT = 0 ∧ 264 ∈ u.chip.faults.evFlight
        ∧ replied s u c 0 (if x.safePart p then (x.openHandles p).map wNat else []) ∧ (x.safePart p = true → u.chip.mode p = 4)
    let refused := fun (u : State) (reason : Nat) => replied s u c St.auth [wNat reason] ∧ 266 ∈ u.chip.faults.evFlight
      ∧ u.chip.fld (R.DBG_SESSION p) F.DBG_SESSION_OPEN = x.fld (R.DBG_SESSION p) F.DBG_SESSION_OPEN
      ∧ (2 < reason → u.chip.fld R.DBG_STAT F.DBG_STAT_FAIL_COUNT = x.fld R.DBG_STAT F.DBG_STAT_FAIL_COUNT ∧ u.chip.sec.lockEnd = x.sec.lockEnd)
      ∧ (reason ≤ 2 → x.fld R.DBG_STAT F.DBG_STAT_FAIL_COUNT < 7 → u.chip.fld R.DBG_STAT F.DBG_STAT_FAIL_COUNT = x.fld R.DBG_STAT F.DBG_STAT_FAIL_COUNT + 1)
      ∧ (reason ≤ 2 → x.fld R.DBG_STAT F.DBG_STAT_FAIL_COUNT = 7 → u.chip.sec.lockEnd = some (x.now + 600000000000) ∧ 267 ∈ u.chip.faults.evFlight)
    let clear := x.flag R.SEC_TAMPER_STAT F.SEC_TAMPER_STAT_LATCHED = false ∧ x.sec.lockEnd = none ∧ lcAdmits x.lcState method level = true
    (passes s c 0x50 → x.sec.nonces.Pairwise (fun a b => a.1 < b.1) → ∀ row ∈ rows,
      (method = 0 → answers row s fun u => u.mem = s.mem ∧ replied s u c 0 [] ∧ u.chip.sessionOpen p = false ∧ nonce u = none
        ∧ (x.sessionOpen p = true → 265 ∈ u.chip.faults.evFlight ∧ mget 0 u.chip.faults.evPar 265 = 0))
      ∧ (method ≠ 0 → x.flag R.SEC_TAMPER_STAT F.SEC_TAMPER_STAT_LATCHED = true → answers row s fun u => refused u 6)
      ∧ (method ≠ 0 → x.flag R.SEC_TAMPER_STAT F.SEC_TAMPER_STAT_LATCHED = false → x.sec.lockEnd ≠ none → answers row s fun u => refused u 5)
      ∧ (method ≠ 0 → x.flag R.SEC_TAMPER_STAT F.SEC_TAMPER_STAT_LATCHED = false → x.sec.lockEnd = none → lcAdmits x.lcState method level = false →
          answers row s fun u => refused u 4)
      ∧ (method = 1 → clear → (x.passwordMatches c = false → answers row s fun u => refused u 1)
          ∧ (x.passwordMatches c = true → answers row s fun u => open' u (if x.lcState = 0 then 0 else 1)))
      ∧ (method = 2 → clear → answers row s fun u => u.mem = s.mem ∧ u.chip.regs = x.regs
          ∧ ∃ v : BitVec 256, nonce u = some (level, v.toNat, x.now)
            ∧ replied s u c 0 [wNat v.toNat, wNat (v.toNat / 2 ^ 64), wNat (v.toNat / 2 ^ 128), wNat (v.toNat / 2 ^ 192)])
      ∧ (method = 3 → clear → x.nonceOf p = none → answers row s fun u => refused u 3 ∧ nonce u = none)
      ∧ (method = 3 → clear → ∀ lv v, x.nonceOf p = some (lv, v) → (lv ≠ level → answers row s fun u => refused u 3 ∧ nonce u = none)
          ∧ (lv = level → let o := x.credOf (sha384 (x.sessionMessage v p level)) (sixWords c 1, sixWords c 7)
            (o = none → answers row s fun u => refused u 2 ∧ nonce u = none)
            ∧ ∀ cred, o = some cred → answers row s fun u => open' u (if x.lcState = 0 then 0 else cred) ∧ nonce u = none)))
    ∧ (∀ q : Fin 4, x.sec.nonces.Pairwise (fun a b => a.1 < b.1) → ∀ lv v t, mget? x.sec.nonces q.val = some (lv, v, t) →
        (x.now < t + 60000000000 → exec (.nonceExpiry q) s = .next s)
        ∧ (t + 60000000000 ≤ x.now → answers (.nonceExpiry q) s fun u => mget? u.chip.sec.nonces q.val = none ∧ u.mem = s.mem ∧ u.pending = s.pending
            ∧ u.chip = { x with sec := { x.sec with nonces := u.chip.sec.nonces } } ∧ ∀ r, r ≠ q.val → mget? u.chip.sec.nonces r = mget? x.sec.nonces r))
    ∧ (∀ t, x.sec.lockEnd = some t → (x.now < t → exec .lockoutEnd s = .next s)
        ∧ (t ≤ x.now → answers .lockoutEnd s fun u => u.mem = s.mem ∧ u.pending = s.pending ∧ u.chip.sec.lockEnd = none
          ∧ u.chip.fld R.DBG_STAT F.DBG_STAT_FAIL_COUNT = 4 ∧ u.chip.faults.evFlight = x.faults.evFlight ++ [268]))

/-- R454 to R456, R464: a session of level 2 halts, steps and resumes the clusters of its partition, and without one the three change nothing; a halt of more than one second ends the
cluster's job with ST_ABORTED; the connector reads the words and registers of the partition and writes them at level 2; EXTEST drives pins only at level 3, with no partition
enabled, in BOOT and with no port UP. -/
def Obligations.DebugControlsItsPartition : Prop :=
  ∀ (s : State) (cl : Fin 48), let x := s.chip
    let n := cl.val
    let only := fun (u : State) => u.mem = s.mem ∧ u.pending = s.pending ∧ u.chip = { x with clusters := u.chip.clusters }
      ∧ ∀ k, k ≠ n → u.chip.clu k = x.clu k
    let none' := x.controls n = none
    let ok := x.controls n ≠ none ∧ x.cluFenced n = false ∧ x.dieFenced (n / 12) = false
    (none' → exec (.debugHalt cl) s = .next s ∧ exec (.debugStep cl) s = .next s ∧ exec (.debugResume cl) s = .next s)
    ∧ (ok → answers (.debugHalt cl) s (fun u => only u ∧ u.chip.clu n = { x.clu n with haltAt := some ((x.clu n).haltAt.getD x.now), stepOne := false })
        ∧ answers (.debugResume cl) s (fun u => only u ∧ u.chip.clu n = { x.clu n with haltAt := none, stepOne := false })
        ∧ ((x.clu n).haltAt ≠ none → answers (.debugStep cl) s fun u => only u ∧ u.chip.clu n = { x.clu n with stepOne := true }))
    ∧ (∀ t j, (x.clu n).haltAt = some t → (x.clu n).job = some j.handle → x.job j.handle = some j → j.ended = none →
        (x.now ≤ t + 1000000000 → exec (.debugHaltTimeout cl) s = .next s)
        ∧ (t + 1000000000 < x.now → answers (.debugHaltTimeout cl) s fun u => u.mem = s.mem ∧ u.pending = s.pending
            ∧ (∀ k ∈ j.clusters, (u.chip.clu k).job = none) ∧ ∃ k, u.chip.job j.handle = some k ∧ k.ended = some ⟨St.aborted, 0#64, 0#64⟩))
    ∧ (∀ (p : Fin 4) (a : Nat) (w : Word), let lv := x.dbgLevel p.val
        let who := debugWho p.val (lv == 3)
        (lv = 0 → ∀ wr, exec (.debugPortAccess p wr a w) s = .next s)
        ∧ (1 ≤ lv → x.flag (R.PAR_STATUS p.val) F.PAR_STATUS_FENCED = false →
          (∀ r, x.route who a false = .register r → answers (.debugPortAccess p false a w) s fun u => u.mem = s.mem ∧ u.pending = s.pending
              ∧ u.chip = { x with sec := { x.sec with dbgReply := x.readReg r } })
          ∧ (∀ k f l, x.route who a false = .word k f l → plain x k l → memChk s.mem k = some (codeCheck (memWord s.mem k) f) →
              answers (.debugPortAccess p false a w) s fun u => u.mem = s.mem ∧ u.pending = s.pending
                ∧ u.chip = { x with sec := { x.sec with dbgReply := wNat (memWord s.mem k) } })
          ∧ (lv = 1 → exec (.debugPortAccess p true a w) s = .next s)
          ∧ (2 ≤ lv → ∀ k f l, x.route who a true = .word k f l → plain x k l → answers (.debugPortAccess p true a w) s fun u =>
              u.pending = s.pending ∧ u.chip = x ∧ wordIs u.mem k f w.toNat)))
    ∧ ∀ (drive : List Bool) (on : Bool),
        (on = true ↔ (∃ p < 4, x.dbgLevel p = 3) ∧ (∀ p < 4, x.parEn p = false) ∧ x.moduleMode = 0 ∧ ∀ p < 4, x.portUp p = false) →
        exec (.extest drive) s = .next { s with chip := { x with pins := { x.pins with driven := if on then some drive else none } } }

/-! ## Power (chapter 18) -/

/-- R461, R468 to R471, Tables 18.2 and 18.3: a power request is answered at once when its state is present or a transition runs, and otherwise starts a transition, closing every
session on the way to P2 or P3; the end of the transition sets the state, answers the command and raises the event; P1 runs the clusters at 800 MHz and P0 at 1,600, but moves no
pinned island (R18), P2 and P3 gate them, and P3 loses the stacks' contents and no other stored word. -/
def Obligations.PowerStatesChange : Prop :=
  ∀ (s : State), let x := s.chip
    let busy := x.fld R.PWR_STAT F.PWR_STAT_BUSY
    (∀ c : Cmd, passes s c 0x60 → let t := c.p 0 % 4
      (busy = 1 → answers (.cmdPowerState c) s fun u => mailOnly s u ∧ replied s u c St.busy [])
      ∧ (busy = 0 → t = x.pState → answers (.cmdPowerState c) s fun u => mailOnly s u ∧ replied s u c 0 [])
      ∧ (busy = 0 → t ≠ x.pState → 2 ≤ t → x.powerBusy = true →
          answers (.cmdPowerState c) s fun u => mailOnly s u ∧ replied s u c St.busy [])
      ∧ (busy = 0 → t ≠ x.pState → (t < 2 ∨ x.powerBusy = false) → answers (.cmdPowerState c) s fun u => u.mem = s.mem ∧ silent s u c
          ∧ u.chip.fld R.PWR_STAT F.PWR_STAT_BUSY = 1 ∧ u.chip.fld R.PWR_STAT F.PWR_STAT_TARGET = t ∧ u.chip.pState = x.pState
          ∧ u.chip.mgmt.pwrCmd = some c ∧ (2 ≤ t → ∀ p < 4, u.chip.sessionOpen p = false)))
    ∧ (busy = 0 → ∀ fails spares, exec (.powerTransitionDone fails spares) s = .next s)
    ∧ (busy = 1 → let t := x.fld R.PWR_STAT F.PWR_STAT_TARGET
        answers (.powerTransitionDone [] []) s fun u => u.pending = s.pending ∧ u.chip.pState = t ∧ u.chip.fld R.PWR_STAT F.PWR_STAT_BUSY = 0
          ∧ 258 ∈ u.chip.faults.evFlight ∧ mget 0 u.chip.faults.evPar 258 = x.pState * 4 + t ∧ u.chip.mgmt.pwrCmd = none
          ∧ (∀ c, x.mgmt.pwrCmd = some c → posts s c 0x60 → replied s u c 0 [])
          ∧ (t < 2 → u.mem = s.mem ∧ ∀ n < 48, u.chip.fld (R.CLK_CLUSTER n) F.CLK_CLUSTER_POLICY_MHZ =
              (if x.flag (R.CLK_CLUSTER n) F.CLK_CLUSTER_PINNED = true then x.fld (R.CLK_CLUSTER n) F.CLK_CLUSTER_POLICY_MHZ else if t = 1 then 800 else 1600))
          ∧ (2 ≤ t → ∀ n < 48, u.chip.fld (R.CLK_CLUSTER n) F.CLK_CLUSTER_GATED = 1)
          ∧ (t = 2 → u.mem = s.mem)
          ∧ (t = 3 → (∀ st < 8, u.chip.fld (R.MEM_STAT st) F.MEM_STAT_PSTATE = 2)
              ∧ ∀ k, memGet? u.mem k = if placeOf k < 0x400000000000 then none else memGet? s.mem k))

/-- R465, R466, R473 to R477, Tables 18.4 and 20.1: a feed that leaves its range is source 0x60 and its event, one that returns the event alone; after the hold-up only flash and fuses remain;
a temperature below 105 degrees only updates the readings, 105 starts the reduction and 115 stops the die; a protective step moves one running island by 100 MHz, to no
less than 400 and back to no more than its policy; boost goes to 1,800; a power above 750 W starts the limit. -/
def Obligations.FeedsAndClocksFollowTheirLimits : Prop :=
  ∀ (s : State), let x := s.chip
    let ev := fun (u : State) (l : List Nat) => u.chip.faults.evFlight = x.faults.evFlight ++ l
    let still := fun (u : State) => u.mem = s.mem ∧ u.pending = s.pending
    let clk := fun (u : State) (n : Nat) (f : Fld) => u.chip.fld (R.CLK_CLUSTER n) f
    (∀ (feed : Fin 2) (ok : Bool) (v : Nat), v < 256 → x.powered = true →
      let f := if feed.val = 0 then F.PWR_STAT_FEED1_OK else F.PWR_STAT_FEED2_OK
      let fv := if feed.val = 0 then F.PWR_STAT_FEED1_V else F.PWR_STAT_FEED2_V
      answers (.feedFault feed ok v) s fun u => still u ∧ u.chip.fld R.PWR_STAT f = b2n ok ∧ u.chip.fld R.PWR_STAT fv = v
        ∧ (ok = false → x.fld R.PWR_STAT f = 1 → ev u [104, 247 + feed.val]
          ∧ u.chip.fld (R.FLT_COUNT 88) F.FLT_COUNT_CE = satAdd (x.fld (R.FLT_COUNT 88) F.FLT_COUNT_CE) 1 65535)
        ∧ (ok = true → x.fld R.PWR_STAT f = 0 → ev u [247 + feed.val]) ∧ (b2n ok = x.fld R.PWR_STAT f → ev u []))
    ∧ (answers .powerLoss s fun u => u.pending = s.pending ∧ u.chip.powered = false ∧ u.chip.regs = [] ∧ u.chip.cores = [] ∧ u.chip.clusters = []
        ∧ u.chip.flash = x.flash ∧ u.chip.fuses = x.fuses ∧ u.chip.pins.safeA = false ∧ u.chip.pins.safeB = false
        ∧ ∀ k, memGet? u.mem k = if 0x800000000000 ≤ k ∧ k < 2 ^ 48 then memGet? s.mem k else none)
    ∧ (∀ (d : Fin 4) (t : Int) (w : Nat), -128 ≤ t → t < 128 → w < 65536 → let a := R.PWR_DIE d.val
        let th := fun (u : State) => u.chip.fld a F.PWR_DIE_THERM
        answers (.dieTempRead d t w) s fun u => still u ∧ s8 (u.chip.fld a F.PWR_DIE_TJ) = t ∧ u.chip.fld a F.PWR_DIE_DIE_W = w
          ∧ s8 (u.chip.fld a F.PWR_DIE_TJ_MAX) = max (s8 (x.fld a F.PWR_DIE_TJ_MAX)) t
          ∧ (th s = 0 → t < 105 → x.limiting = false → th u = 0 ∧ ev u [] ∧ ∀ b, b ≠ a → u.chip.reg b = x.reg b)
          ∧ (th s = 0 → 105 ≤ t → t < 115 → th u = 1 ∧ ev u [250 + d.val] ∧ ∀ b, b ≠ a → u.chip.reg b = x.reg b)
          ∧ (th s = 1 → x.limiting = false → t < 100 → (∀ n ∈ clustersOfDie d.val, clk s n F.CLK_CLUSTER_PROTECT = 0) → th u = 0 ∧ ev u [250 + d.val])
          ∧ (th s = 1 → x.limiting = false → 100 ≤ t → t < 115 → th u = 1 ∧ ev u [])
          ∧ (th s ≠ 2 → 115 ≤ t → th u = 2 ∧ (254 + d.val) ∈ u.chip.faults.evFlight ∧ ∀ n ∈ clustersOfDie d.val, clk u n F.CLK_CLUSTER_GATED = 1
              ∧ (x.cluFenced n = false → u.chip.fld (R.FLT_COUNT n) F.FLT_COUNT_UCC = satAdd (x.fld (R.FLT_COUNT n) F.FLT_COUNT_UCC) 1 65535)))
    ∧ (∀ (cl : Fin 48) (down : Bool), let n := cl.val
        let cur := clk s n F.CLK_CLUSTER_CUR_MHZ
        let pol := clk s n F.CLK_CLUSTER_POLICY_MHZ
        (x.runs n = false → exec (.protectiveClockStep cl down) s = .next s)
        ∧ (x.runs n = true → x.asksDown (n / 12) = false → exec (.protectiveClockStep cl true) s = .next s)
        ∧ (x.runs n = true → x.asksDown (n / 12) = true → 400 < cur → answers (.protectiveClockStep cl true) s fun u => still u
            ∧ clk u n F.CLK_CLUSTER_CUR_MHZ = max 400 (cur - 100) ∧ clk u n F.CLK_CLUSTER_PROTECT = b2n (decide (max 400 (cur - 100) < pol))
            ∧ (clk s n F.CLK_CLUSTER_PINNED = 0 → ∀ b, b ≠ R.CLK_CLUSTER n → u.chip.reg b = x.reg b)
            ∧ (clk s n F.CLK_CLUSTER_PINNED = 1 → ∀ p, x.partOf (n / 12) = some p → u.chip.fld (R.PAR_STATUS p) F.PAR_STATUS_TIMING_VOID = 1
                ∧ p ∈ u.chip.faults.clkVoid))
        ∧ (x.runs n = true → x.recovers (n / 12) = true → clk s n F.CLK_CLUSTER_PROTECT = 1 → answers (.protectiveClockStep cl false) s fun u => still u
            ∧ clk u n F.CLK_CLUSTER_CUR_MHZ = min pol (cur + 100) ∧ clk u n F.CLK_CLUSTER_PROTECT = b2n (decide (min pol (cur + 100) < pol)))
        ∧ (x.runs n = true → x.boostOk n = true → answers (.boostStep cl true) s fun u => still u ∧ (∀ b, b ≠ R.CLK_CLUSTER n → u.chip.reg b = x.reg b)
            ∧ clk u n F.CLK_CLUSTER_CUR_MHZ = min 1800 (cur + 100) ∧ clk u n F.CLK_CLUSTER_BOOST = b2n (decide (pol < min 1800 (cur + 100))))
        ∧ (x.boostOk n = false → exec (.boostStep cl true) s = .next s)
        ∧ (x.runs n = true → x.boostOk n = false → clk s n F.CLK_CLUSTER_BOOST = 1 → answers (.boostStep cl false) s fun u => still u
            ∧ clk u n F.CLK_CLUSTER_CUR_MHZ = max pol (cur - 100)))
    ∧ ∀ w : Nat, w < 65536 → answers (.inputPowerLimit w) s fun u => still u ∧ u.chip.inputW = w ∧ (∀ b, b ≠ R.PWR_STAT → u.chip.reg b = x.reg b)
        ∧ (750 < w → u.chip.limiting = true) ∧ (750 < w → x.limiting = false → ev u [249])
        ∧ (x.limiting = false → w ≤ 750 → u.chip.limiting = false ∧ ev u [])
        ∧ (x.limiting = true → w < 700 → x.heldAny (List.range 48) = false → u.chip.limiting = false ∧ ev u [249])
        ∧ (x.limiting = true → 700 ≤ w → u.chip.limiting = true ∧ ev u [])

/-! ## Tamper, life cycle, heartbeat and sensors (chapters 17, 20 and 21) -/

/-- R447 to R452, R493, Tables 17.2, 17.3 and 17.10: a lid that has been open for the filter time is a detection, which while armed wipes, closes the sessions, empties the key store
and latches; a life-cycle request that is allowed burns its fuses, wipes and sets the reset 1 ms later, and any other is refused with EV269; MIN_SVN rises only for
an owner's request that both image sets satisfy. -/
def Obligations.TamperAndLifeCycle : Prop :=
  ∀ (s : State), let x := s.chip
    let stat := fun (u : State) (f : Fld) => u.chip.fld R.SEC_TAMPER_STAT f
    let empty := fun (u : State) => u.chip.sec.vendorKey = none ∧ u.chip.sec.ownerKey = none ∧ u.chip.sec.nonces = []
    let wiping := fun (u : State) (cause : Nat) => ∀ d < 4, u.chip.fld (R.SCR_SEC_STAT d) F.SCR_SEC_STAT_WIPING = 1
      ∧ u.chip.fld (R.SCR_SEC_STAT d) F.SCR_SEC_STAT_LAST_CAUSE = cause
    let ended := fun (u : State) (number result : Nat) => u.chip.sec.lcClosed = false ∧ u.chip.sec.lcParts = [] ∧ u.chip.sec.lcNumber = number % 256
      ∧ u.chip.sec.lcResult = result ∧ u.chip.svc.opDone = true
    (x.powered = true → x.sec.lidOpenAt = none → x.sec.meshAt = none →
      (∀ op sh, x.pins.loopClosed = true → x.pins.meshOpen = false → x.pins.meshShort = false → answers (.tamperInputChange false op sh) s fun u =>
          u.mem = s.mem ∧ u.pending = s.pending ∧ u.chip.sec.lidOpenAt = some x.now
          ∧ u.chip.sec.meshAt = (if op || sh then some x.now else none) ∧ stat u F.SEC_TAMPER_STAT_MESH_OPEN = b2n op
          ∧ stat u F.SEC_TAMPER_STAT_MESH_SHORT = b2n sh ∧ stat u F.SEC_TAMPER_STAT_COUNT = stat s F.SEC_TAMPER_STAT_COUNT)
      ∧ exec .lidFilterExpiry s = .next s)
    ∧ (x.powered = true → x.sec.meshAt = none → ∀ t, x.sec.lidOpenAt = some t →
      (x.now < t + x.lidFilterNs → exec .lidFilterExpiry s = .next s
        ∧ (x.pins.loopClosed = false → x.sec.shortOpens < 255 → answers (.tamperInputChange true false false) s fun u => u.mem = s.mem
          ∧ u.chip.sec.lidOpenAt = none ∧ u.chip.sec.shortOpens = x.sec.shortOpens + 1 ∧ stat u F.SEC_TAMPER_STAT_LID_OPEN = 0
          ∧ stat u F.SEC_TAMPER_STAT_COUNT = stat s F.SEC_TAMPER_STAT_COUNT))
      ∧ (t + x.lidFilterNs ≤ x.now → answers .lidFilterExpiry s fun u => u.mem = s.mem ∧ u.pending = s.pending ∧ stat u F.SEC_TAMPER_STAT_LID_OPEN = 1
        ∧ stat u F.SEC_TAMPER_STAT_COUNT = satAdd (stat s F.SEC_TAMPER_STAT_COUNT) 1 65535
        ∧ (x.tamperArmed = true → empty u ∧ wiping u 2 ∧ stat u F.SEC_TAMPER_STAT_LATCHED = 1 ∧ 270 ∈ u.chip.faults.evFlight ∧ ∀ p < 4, u.chip.sessionOpen p = false)
        ∧ (x.tamperArmed = false → u.chip.sec.vendorKey = x.sec.vendorKey ∧ stat u F.SEC_TAMPER_STAT_LATCHED = stat s F.SEC_TAMPER_STAT_LATCHED)))
    ∧ (let r := Config.lcParse x.sec.lcParts
      let latched := x.flag R.SEC_TAMPER_STAT F.SEC_TAMPER_STAT_LATCHED
      (x.sec.lcClosed = false → exec .lcTransition s = .next s ∧ exec .minSvnRaise s = .next s)
      ∧ (x.sec.lcClosed = true → r.number ≠ 0 →
        ((latched = true ∨ x.lcMoment = false ∨ x.lcAllowed r = false) → answers .lcTransition s fun u => u.mem = s.mem ∧ u.chip.fuses = x.fuses
          ∧ ended u r.number 2 ∧ u.chip.faults.evFlight = x.faults.evFlight ++ [269])
        ∧ (latched = false → x.lcMoment = true → x.lcAllowed r = true → answers .lcTransition s fun u => u.mem = s.mem ∧ u.pending = s.pending
          ∧ ended u r.number 1 ∧ empty u ∧ wiping u 3 ∧ u.chip.sec.lcResetAt = some (x.now + 1000000) ∧ (∀ p < 4, u.chip.sessionOpen p = false)
          ∧ u.chip.fuses.lc = Nat.lor x.fuses.lc (7 * 2 ^ (3 * (r.number - 1))) ∧ u.chip.fuses.serial = x.fuses.serial
          ∧ (r.number = 2 → u.chip.fuses.ownerHash = Nat.lor x.fuses.ownerHash r.ownerHash)
          ∧ (r.number = 5 → u.chip.fuses.ownerHash = 2 ^ 384 - 1 ∧ u.chip.fuses.ownerPwd = 2 ^ 256 - 1)))
      ∧ (x.sec.lcClosed = true → r.number = 0 → let new := Nat.lor x.fuses.minSvn r.minSvn
        let bad := latched = true ∨ x.ownerSigned r = false ∨ setSvn s.mem 0 < popcount 64 new ∨ setSvn s.mem 1 < popcount 64 new
        (bad → answers .minSvnRaise s fun u => u.mem = s.mem ∧ u.chip.fuses = x.fuses ∧ ended u 0 2 ∧ u.chip.faults.evFlight = x.faults.evFlight ++ [269])
        ∧ (¬ bad → answers .minSvnRaise s fun u => u.mem = s.mem ∧ u.pending = s.pending ∧ u.chip.fuses = { x.fuses with minSvn := new } ∧ ended u 0 1
            ∧ u.chip.regs = x.regs)))

/-- R43, R369, R493, R507: a beat that is due moves the level and the time of the last beat; one that comes less than 9.5 ms or, like none at all, more than 100 ms after
the last is a loss while the monitor is armed: source 0x71, and the module is HALTED with every partition's mode 7 and SAFE_A and SAFE_B showing it; a sensor's threshold raises its event. -/
def Obligations.HeartbeatAndSensorsAreWatched : Prop :=
  ∀ (s : State), let x := s.chip
    let dt := x.now - x.pins.hbAt
    let lost := fun (u : State) => u.mem = s.mem ∧ u.pending = s.pending ∧ u.chip.faults.halted = true ∧ u.chip.moduleMode = 7 ∧ (∀ p < 4, u.chip.mode p = 7)
      ∧ u.chip.pins.safeA = false ∧ u.chip.pins.safeB = true
      ∧ u.chip.fld (R.FLT_COUNT 90) F.FLT_COUNT_FTL = satAdd (x.fld (R.FLT_COUNT 90) F.FLT_COUNT_FTL) 1 255
      ∧ (x.fld (R.FLT_STAT 90) F.FLT_STAT_VALID = 0 → u.chip.fld (R.FLT_STAT 90) F.FLT_STAT_SOURCE = 0x71 ∧ u.chip.fld (R.FLT_STAT 90) F.FLT_STAT_CLASS = 3)
    (exec (.hbInBeat x.pins.hbIn) s = .next s)
    ∧ (∀ b, b ≠ x.pins.hbIn → (x.faults.hbArmed = false ∨ (10000000 ≤ dt ∧ dt < 105000000)) → answers (.hbInBeat b) s fun u => u.mem = s.mem
        ∧ u.pending = s.pending ∧ u.chip = { x with freeCtr := x.freeCtr + 1, pins := { x.pins with hbIn := b, hbAt := x.now } })
    ∧ (x.powered = true → x.faults.hbArmed = true → x.faults.halted = false →
        (∀ b, b ≠ x.pins.hbIn → (dt < 9500000 ∨ 105000000 ≤ dt) → answers (.hbInBeat b) s lost)
        ∧ (100000000 < dt → answers .heartbeatLoss s lost) ∧ (dt ≤ 100000000 → exec .heartbeatLoss s = .next s))
    ∧ ∀ (k : Fin 288) (v : Nat), x.powered = true →
        (sensorLine k.val = true → answers (.sensorThresholdCrossing k v) s fun u => u.mem = s.mem ∧ u.pending = s.pending ∧ u.chip.regs = x.regs
          ∧ u.chip.faults.evFlight = x.faults.evFlight ++ [k.val] ∧ mget 0 u.chip.faults.evPar k.val = v % 512)
        ∧ (sensorLine k.val = false → exec (.sensorThresholdCrossing k v) s = .next s)

/-! ## Service port (chapter 21) -/

/-- R510 to R512, Tables 21.2 to 21.4: a transaction with a bad error code only counts; the offered reads answer their words; SELECT takes an inst up to 90; an image set is opened,
erased, written at the expected offset only, closed and checked, and IMG_STAT shows how far it is; a life-cycle request collects its parts until an empty one closes it; the alert response answers
the address while the line is asserted. -/
def Obligations.ServicePortTransactions : Prop :=
  ∀ (s : State), let x := s.chip
    let v := x.svc
    let only := fun (u : State) => u.mem = s.mem ∧ u.pending = s.pending ∧ u.chip = { x with svc := u.chip.svc }
    let tells := fun (i : Instr) (r : Option (List Word)) => exec i s = .next { s with chip := { x with svc := { v with reply := r } } }
    let rows := fun (pec : Bool) => [Instr.serviceStatus pec, .serviceFault pec, .serviceIdentify pec, .imgStat pec, .lcResult pec] 
    (x.powered = true → (∀ row ∈ rows false, answers row s fun u => u.mem = s.mem ∧ u.pending = s.pending
        ∧ u.chip = { x with regs := u.chip.regs, svc := { v with reply := none } } ∧ (∀ a, a ≠ R.HUB_SVC_STAT → u.chip.reg a = x.reg a)
        ∧ u.chip.fld R.HUB_SVC_STAT F.HUB_SVC_STAT_PEC_ERR = satAdd (x.fld R.HUB_SVC_STAT F.HUB_SVC_STAT_PEC_ERR) 1 65535)
      ∧ (x.offers true = false → ∀ row ∈ rows true, tells row none))
    ∧ (x.powered = true → x.offers true = true →
      tells (.serviceStatus true) (some [x.readReg R.HUB_BOOT_STAT, x.readReg R.PWR_STAT,
        wNat (b2n x.faults.hbArmed * 32 + x.fld R.HUB_BOOT_STAT F.HUB_BOOT_STAT_READY * 16 + b2n x.faults.halted * 8 + x.pState),
        wNat (b2n x.pins.safeA * 2 + b2n x.pins.safeB)])
      ∧ tells (.serviceIdentify true) (some [0x4D2D30343631584B#64, wNat (0x2D38 + x.fuses.variant * 2 ^ 16), wNat x.fuses.serial,
        wNat (x.fuses.serial / 2 ^ 64), x.mgmt.release, wNat (x.pins.slotId * 2 ^ 16 + x.addr 1 * 2 ^ 8 + x.addr 0)])
      ∧ tells (.imgStat true) (some [wNat (v.imgState * 2 ^ 56 + v.imgCode * 2 ^ 48 + v.imgCount)])
      ∧ (∀ w : Word, let k := w.toNat % 256
          (1 < k ∨ x.stage = 3 ∨ x.stage = 4 ∨ (v.imgState = 1 ∧ v.imgSet ≠ k) → tells (.imgOpen true w) none)
          ∧ (k ≤ 1 → x.stage ≠ 3 → x.stage ≠ 4 → (v.imgState = 1 → v.imgSet = k) → answers (.imgOpen true w) s fun u => u.pending = s.pending
            ∧ u.chip = { x with svc := { v with imgSet := k, imgLen := 0, imgCount := 0, imgState := 1, imgCode := 0, reply := some [] } }
            ∧ ∀ a, memGet? u.mem a = if 0x800000000000 + k * 0x1000000 ≤ a ∧ a < 0x800000000000 + (k + 1) * 0x1000000 then none else memGet? s.mem a))
      ∧ (∀ (off : Nat) (l : List Byte),
          (v.imgState = 1 → off = v.imgCount → l.length = 240 → off + 240 ≤ 0x1000000 → answers (.imgData true off l) s fun u => u.pending = s.pending
            ∧ u.chip = { x with svc := { v with imgCount := off + 240, reply := some [] } }
            ∧ let b := 0x800000000000 + v.imgSet * 0x1000000 + off
              (∀ i < 240, memGet? u.mem (b + i) = l[i]?) ∧ ∀ a, ¬ (b ≤ a ∧ a < b + 240) → memGet? u.mem a = memGet? s.mem a)
          ∧ (off ≠ v.imgCount → tells (.imgData true off l) (some [])))
      ∧ (∀ len : Nat, (v.imgState = 1 → answers (.imgClose true len) s fun u => only u ∧ u.chip.svc = { v with imgLen := len, imgState := 2, reply := some [] })
          ∧ (v.imgState ≠ 1 → tells (.imgClose true len) none)))
    ∧ (x.powered = true → x.offers false = true →
      (∀ w : Word, (90 < w.toNat % 256 → tells (.serviceSelect true w) none)
        ∧ (w.toNat % 256 ≤ 90 → bit w.toNat 8 = false → answers (.serviceSelect true w) s fun u => only u
            ∧ u.chip.svc = { v with sel := w.toNat % 256, reply := some [] }))
      ∧ (let e := x.viewEntry v.sel
         tells (.serviceFault true) (some [e.1, e.2.1, x.readReg (R.FLT_TIME v.sel), x.readReg (R.FLT_COUNT v.sel), e.2.2.1, wNat e.2.2.2]))
      ∧ tells (.lcResult true) (some [wNat (x.sec.lcResult * 2 ^ 56 + x.sec.lcNumber)])
      ∧ (∀ l : List Byte, l.length ≤ 240 → (x.sec.lcClosed = true → tells (.lcRequest true l) none)
          ∧ (x.sec.lcClosed = false → answers (.lcRequest true l) s fun u => u.mem = s.mem ∧ u.pending = s.pending
            ∧ u.chip.sec = { x.sec with lcParts := x.sec.lcParts ++ l, lcClosed := l.isEmpty, lcResult := 0, lcNumber := 0 }
            ∧ u.chip.svc.reply = some [] ∧ u.chip.regs = x.regs)))
    ∧ (v.imgState = 2 → ∀ ok : Bool, let code := x.imageCheck s.mem (v.imgSet * 0x1000000) ok
        answers (.imageCheckDone ok) s fun u => only u ∧ u.chip.svc = { v with imgState := (if code = 0 then 3 else 4), imgCode := code, opDone := true })
    ∧ (v.imgState ≠ 2 → ∀ ok, exec (.imageCheckDone ok) s = .next s)
    ∧ (x.alert = true → answers .alertResponseRead s fun u => only u ∧ u.chip.svc = { v with opDone := false, reply := some [wNat (0x58 + x.pins.slotId)] })
    ∧ (x.alert = false → tells .alertResponseRead none)

/-! ## Resets and start-up (chapters 13, 16, 19) -/

namespace Sys2Proof.Claims

/-- R370, R400, Table 13.11: what a module reset leaves: time, fuses, flash, the LNK block, scratch, the counts of wipes and of tamper detections; every other register is
at its reset word and every other unit as after power-on. -/
def isReset (s u : State) (go : Bool) : Prop :=
  let x := s.chip
  let c := u.chip
  u.pending = s.pending ∧ c.now = x.now ∧ c.resetAt = x.now ∧ c.powered = true ∧ c.fuses = x.fuses ∧ c.flash = x.flash
    ∧ c.cores = [] ∧ c.clusters = [] ∧ c.tiles = [] ∧ c.badger = {} ∧ c.mgmt = {} ∧ c.mbxA = {} ∧ c.mbxB = {} ∧ c.queues = {} ∧ c.domains = []
    ∧ c.fabric = {} ∧ c.faults = {} ∧ c.sec = {} ∧ c.svc = {} ∧ c.islands = {}
    ∧ c.pins = { x.pins with started := go, safeA := false, safeB := go, driven := none }
    ∧ (∀ a, isLnkReg a = false → a ≠ R.SEC_TAMPER_STAT → (∀ d < 4, a ≠ R.SCR_SEC_STAT d) → c.reg a = regReset a)
    ∧ (∀ d < 4, c.fld (R.SCR_SEC_STAT d) F.SCR_SEC_STAT_WIPE_COUNT = x.fld (R.SCR_SEC_STAT d) F.SCR_SEC_STAT_WIPE_COUNT
        ∧ c.fld (R.SCR_SEC_STAT d) F.SCR_SEC_STAT_LAST_CAUSE = x.fld (R.SCR_SEC_STAT d) F.SCR_SEC_STAT_LAST_CAUSE)
    ∧ c.fld R.SEC_TAMPER_STAT F.SEC_TAMPER_STAT_COUNT = x.fld R.SEC_TAMPER_STAT F.SEC_TAMPER_STAT_COUNT
    ∧ (∀ p < 4, (c.port p).retry = (x.port p).retry)
    ∧ ∀ k, memGet? u.mem k = if survivesReset k then memGet? s.mem k else none

end Sys2Proof.Claims

/-- R370, R418, R428, R450, R466, R504: what makes a module reset and what it leaves: RESET_N low for 10 microseconds or more, PWR_GOOD falling, CMD_RESET 1 ms after its response;
a shorter low than 1 microsecond is ignored; PWR_GOOD rising starts the sequence; power that arrives in Off resets all but flash and fuses, and on a module that runs only
brings the feed. -/
def Obligations.ResetsKeepWhatTheTableSays : Prop :=
  ∀ (s : State), let x := s.chip
    (∀ low t, x.powered = true → (10000 ≤ low ∨ (1000 ≤ low ∧ t = true)) → answers (.resetNAssert low t) s fun u => isReset s u (x.pins.resetN && x.pins.pwrGood))
    ∧ (∀ low t, (low < 1000 ∨ (low < 10000 ∧ t = false) ∨ x.powered = false) → exec (.resetNAssert low t) s = .next s)
    ∧ (x.powered = true → x.pins.pwrGood = true → answers (.pwrGoodChange false) s fun u =>
        isReset { s with chip := { x with pins := { x.pins with pwrGood := false } } } u false)
    ∧ (x.powered = true → x.pins.pwrGood = false → answers (.pwrGoodChange true) s fun u => u.mem = s.mem ∧ u.pending = s.pending
        ∧ u.chip = { x with resetAt := (if x.pins.resetN then x.now else x.resetAt),
                            pins := { x.pins with pwrGood := true, started := x.pins.resetN, safeB := x.pins.resetN } })
    ∧ (let due := dueAt x.mgmt.resetAtNs x.now = true ∨ dueAt x.sec.lcResetAt x.now = true
       (x.powered = true → due → answers .moduleReset s fun u => isReset s u (x.pins.resetN && x.pins.pwrGood))
       ∧ (¬ due → exec .moduleReset s = .next s))
    ∧ (∀ c : Cmd, passes s c 0x7F → answers (.cmdReset c) s fun u => u.mem = s.mem ∧ replied s u c 0 []
        ∧ u.chip = { x with mbxA := u.chip.mbxA, mbxB := u.chip.mbxB, queues := u.chip.queues, mgmt := { x.mgmt with resetAtNs := some (x.now + 1000000) } })
    ∧ ∀ feed : Fin 2, let ok := if feed.val = 0 then F.PWR_STAT_FEED1_OK else F.PWR_STAT_FEED2_OK
        let volts := if feed.val = 0 then F.PWR_STAT_FEED1_V else F.PWR_STAT_FEED2_V
        let fed := fun (u : State) => u.chip.fld R.PWR_STAT ok = 1 ∧ 40 ≤ u.chip.fld R.PWR_STAT volts ∧ u.chip.fld R.PWR_STAT volts ≤ 60
        (x.powered = false → answers (.powerOn feed) s fun u => u.pending = s.pending ∧ u.chip.powered = true ∧ u.chip.resetAt = x.now ∧ fed u
          ∧ u.chip.flash = x.flash ∧ u.chip.fuses = x.fuses ∧ u.chip.cores = [] ∧ u.chip.clusters = [] ∧ u.chip.ports = [] ∧ u.chip.mgmt = {} ∧ u.chip.sec = {}
          ∧ (∀ a, a ≠ R.PWR_STAT → a ≠ R.SEC_TAMPER_STAT → u.chip.reg a = regReset a)
          ∧ ∀ k, memGet? u.mem k = if survivesOff k then memGet? s.mem k else none)
        ∧ (x.powered = true → x.fld R.PWR_STAT ok = 1 → exec (.powerOn feed) s = .next s)
        ∧ (x.powered = true → x.fld R.PWR_STAT ok = 0 → answers (.powerOn feed) s fun u => u.mem = s.mem ∧ u.pending = s.pending ∧ fed u
          ∧ u.chip.faults.evFlight = x.faults.evFlight ++ [247 + feed.val] ∧ ∀ a, a ≠ R.PWR_STAT → u.chip.reg a = x.reg a)

/-- R171, R182, R189, R222, R229, R428, R429, R431, R433 to R436, Table 16.1: each stage does its work and goes to the next, and does nothing outside its stage: a core that fails its self-test
halts the module; hub SRAM, both Badger Dens and the secure regions hold zero; an accepted set is copied to hub SRAM, and a refused one leads to the other or to stage 0xF with its cause;
spares that fail are FAILED; the recorded pages are retired; the executive image lies in every die; then both chains accept and EV000 is the first event. -/
def Obligations.StartUpRunsItsStages : Prop :=
  ∀ (s : State), let x := s.chip
    let at' := fun (k : Nat) => x.inStage k = true
    let goes := fun (u : State) (k : Nat) => u.pending = s.pending ∧ u.chip.stage = k
    let boot := fun (u : State) (f : Fld) => u.chip.fld R.HUB_BOOT_STAT f
    (∀ row k, (row, k) ∈ [(Instr.romSelftest true true, 1), (.hubInit, 2), (.imageA true, 3), (.imageB true, 4), (.terindStart, 5), (.dramTrain [], 6),
        (.spareTest [], 7), (.records, 8), (.execLoad, 9), (.hostReady, 10)] → x.inStage k = false → exec row s = .next s)
    ∧ (at' 1 → x.faults.halted = false → answers (.romSelftest true true) s (fun u => u.mem = s.mem ∧ goes u 2)
        ∧ answers (.romSelftest true false) s (fun u => u.mem = s.mem ∧ goes u 1 ∧ u.chip.faults.halted = true))
    ∧ (at' 2 → answers .hubInit s fun u => goes u 3 ∧ u.chip.fld R.SEC_LC F.SEC_LC_STATE = lcStateOf x.fuses.lc
        ∧ (∀ i < 0x200000, wordIs u.mem (0x500000000000 + 8 * i) i 0) ∧ (∀ k ∈ [144, 145], ∀ i < 0x2000, wordIs u.mem (denBase k + 8 * i) i 0)
        ∧ ∀ d < 4, u.chip.fld (R.SCR_SEC_STAT d) F.SCR_SEC_STAT_WIPING = 0 ∧ u.chip.fld (R.SCR_SEC_STAT d) F.SCR_SEC_STAT_LAST_CAUSE = 1
            ∧ ∀ i < 0x20000, wordIs u.mem (0x400005F00000 + d * 0x10000000 + 8 * i) (0xBE0000 + i) 0)
    ∧ (∀ (k : Fin 2) (ok : Bool), at' (3 + k.val) → let row := if k.val = 0 then Instr.imageA ok else .imageB ok
        let b := k.val * 0x1000000
        let code := x.bootCheck s.mem b ok
        answers row s fun u => if code = 0 then goes u 5 ∧ boot u F.HUB_BOOT_STAT_IMAGE = k.val + 1
          ∧ (∀ i < (imageLens s.mem b).1 / 8, wordIs u.mem (0x500000000000 + 8 * i) i (flashWord s.mem (b + 0x100 + 8 * i)))
          ∧ (x.imageSigner s.mem b = some 1 → u.chip.sec.vendorKey = some (imageKey s.mem b))
        else u.mem = s.mem ∧ if k.val = 0 then goes u 4 ∧ boot u F.HUB_BOOT_STAT_A_CAUSE = code
          else goes u 15 ∧ boot u F.HUB_BOOT_STAT_B_CAUSE = code ∧ boot u F.HUB_BOOT_STAT_FAILED = 1)
    ∧ (at' 5 → answers .terindStart s fun u => u.mem = s.mem ∧ goes u 6 ∧ ∀ k ∈ [144, 145], (u.chip.core k).run = .executing ∧ (u.chip.core k).sup = true
        ∧ 0x500000000000 ≤ (u.chip.core k).pc ∧ (u.chip.core k).pc < 0x500000400000)
    ∧ (at' 6 → answers (.dramTrain []) s fun u => u.mem = s.mem ∧ goes u 7 ∧ (∀ st < 8, u.chip.fld (R.MEM_STAT st) F.MEM_STAT_TRAINED = 1
        ∧ u.chip.fld (R.MEM_STAT st) F.MEM_STAT_PSTATE = 0) ∧ ∀ d < 4, ∀ n < 64, u.chip.fld (pchStat d n) F.MEM_PCH_STAT_TRAINED = 1)
    ∧ (at' 7 → ∀ (d : Fin 4) (n : Fin 64), answers (.spareTest [(d, n)]) s fun u => u.mem = s.mem ∧ goes u 8
        ∧ u.chip.fld (R.RES_PCH d.val n.val) F.RES_PCH_STATE = (if x.fld (R.RES_PCH d.val n.val) F.RES_PCH_STATE = 1 then 6 else x.fld (R.RES_PCH d.val n.val) F.RES_PCH_STATE))
    ∧ (at' 8 → answers .records s fun u => u.mem = s.mem ∧ goes u 9 ∧ (∀ d < 4, ∀ page, u.chip.pageRetired d page = true ↔ page ∈ mget [] x.flash.pages d)
        ∧ ∀ d n sp, d < 4 → n < 64 → sp < 64 → n ≠ sp → x.flash.subs = [(d, (n, sp))] → x.fld (R.RES_PCH d n) F.RES_PCH_LOGICAL ≠ 0x3F →
            x.fld (R.RES_PCH d sp) F.RES_PCH_STATE = 1 → u.chip.fld (R.RES_PCH d n) F.RES_PCH_STATE = 4 ∧ u.chip.fld (R.RES_PCH d sp) F.RES_PCH_STATE = 0
              ∧ u.chip.fld (R.RES_PCH d sp) F.RES_PCH_LOGICAL = x.fld (R.RES_PCH d n) F.RES_PCH_LOGICAL)
    ∧ (at' 9 → let b := (x.fld R.HUB_BOOT_STAT F.HUB_BOOT_STAT_IMAGE - 1) * 0x1000000
        let l := imageLens s.mem b
        l.2 ≤ 0x30000 → answers .execLoad s fun u => goes u 10 ∧ ∀ d < 4, ∀ i < l.2 / 8,
          wordIs u.mem (0x400005EC0000 + d * 0x10000000 + 8 * i) (0xBD8000 + i) (flashWord s.mem (b + 0x100 + l.1 + 8 * i)))
    ∧ (at' 10 → x.flag R.HUB_BOOT_STAT F.HUB_BOOT_STAT_READY = false → x.mbxA.evtQ = [] → x.mbxB.evtQ = [] → answers .hostReady s fun u => u.mem = s.mem ∧ goes u 10
        ∧ boot u F.HUB_BOOT_STAT_READY = 1 ∧ u.chip.mbxA.accept = true ∧ u.chip.mbxB.accept = true
        ∧ (∀ st < 8, u.chip.fld (R.MEM_STAT st) F.MEM_STAT_PSTATE = 1)
        ∧ ∀ ch < 2, ∃ w : Word, (u.chip.mbx ch).evtQ = [w] ∧ bits w.toNat 63 60 = 0xE ∧ bits w.toNat 59 51 = 0)

/-- R25, R183, R370, R400, R428, R483, Table 13.11: the state right after a module reset: no command waits, no word is stored, every core is held, no partition exists, nothing is recorded, each
mailbox refuses words, and the registers hold the reset words that their tables give, of which some are named. The values of state that no table gives are the model's (log entries). -/
def Obligations.ResetStateHoldsStatedValues : Prop :=
  State.reset.pending = [] ∧ State.reset.mem = [] ∧ Memory.wf State.reset.mem = true ∧ (let c := State.reset.chip
    (∀ a, c.reg a = regReset a) ∧ (∀ k, (c.core k).run = .held) ∧ (∀ ch, (c.mbx ch).accept = false ∧ (c.mbx ch).rspQ = [] ∧ (c.mbx ch).evtQ = [])
    ∧ c.faults.halted = false ∧ c.mgmt.jobs = [] ∧ c.moduleMode = 0 ∧ (∀ p < 4, c.parEn p = false ∧ c.mode p = 0) ∧ (∀ d < 4, c.partOf d = none)
    ∧ (∀ i ≤ 90, c.reg (R.FLT_STAT i) = 0#64 ∧ c.reg (R.FLT_COUNT i) = 0#64 ∧ c.reg (R.FLT_FENCE i) = 0#64) ∧ c.stage = 1 ∧ c.flag R.HUB_BOOT_STAT F.HUB_BOOT_STAT_READY = false
    ∧ (∀ d < 4, c.fld (R.PWR_DIE d) F.PWR_DIE_TJ = 0x80 ∧ c.fld (R.PWR_DIE d) F.PWR_DIE_TJ_MAX = 0x80)
    ∧ (∀ d < 4, ∀ n < 64, c.fld (R.RES_PCH d n) F.RES_PCH_STATE = (if n < 61 then 0 else 1) ∧ c.fld (R.RES_PCH d n) F.RES_PCH_LOGICAL = (if n < 61 then n else 0x3F))
    ∧ (∀ n < 48, c.fld (R.FOX_CTRL n) F.FOX_CTRL_HOLD = 1) ∧ c.addr 0 = 0x3F ∧ c.addr 1 = 0x3F)

/-! ## Jobs (chapters 3, 4, 13 and 15) -/

/-- R23, R50 to R53, R66, R68, R106, R242, R364, R411, R414, R419, Table 15.7: the first waiting job of a partition starts on its lowest idle clusters in user mode at its entry with the registers of
R52, its Dens' user areas zeroed, or ends with ST_PARAM, ST_RESOURCE or ST_RANGE; it completes with rank 0's G0 once every cluster has returned and no stream is
in flight; its end is posted to the owner, with an event and in the lists of handles, once none of its writes can still reach memory, a discarded one by its own response. -/
def Obligations.JobsStartCompleteAndPost : Prop :=
  ∀ (s : State), let x := s.chip
    (∀ (p : Fin 4) (j : Job), x.nextQueued p.val = some j → x.job j.handle = some j → x.faults.halted = false → 1 ≤ x.mode p.val → x.mode p.val ≤ 3 →
      let ended := fun (st : Nat) => answers (.jobStart p) s fun u => u.mem = s.mem ∧ u.pending = s.pending
        ∧ ∃ k, u.chip.job j.handle = some k ∧ k.ended = some ⟨st, 0#64, 0#64⟩
      (readBlock x s.mem (x.execWho p.val) j.pblock = .broken → ended St.param)
      ∧ (∀ h l, readBlock x s.mem (x.execWho p.val) j.pblock = .good h l →
        let svc := (x.clustersOf p.val).filter x.cluInService
        let n := if h.clusters = 0 then svc.length else h.clusters
        let free := svc.filter x.idle
        (svc.length < n → ended St.resource)
        ∧ (0 < n → n ≤ svc.length → x.safePart p.val = false → free.length < n → exec (.jobStart p) s = .next s)
        ∧ (0 < n → x.safePart p.val = false → n ≤ free.length → x.rangesOk p.val j h l = false → ended St.range)
        ∧ (0 < n → n ≤ free.length → x.rangesOk p.val j h l = true →
            (x.safePart p.val = true → (l.any fun r => x.pagesIn r true) = false ∧ ((x.writesFlowing p.val).any fun w => l.any w.overlaps) = false) →
            answers (.jobStart p) s fun u => u.pending = s.pending
              ∧ (∃ k, u.chip.job j.handle = some k ∧ k.started = true ∧ k.startCycle = x.hubCycle ∧ k.clusters = free.take n ∧ k.ranges = l ∧ k.ended = none)
              ∧ ∀ (r cl : Nat), (free.take n)[r]? = some cl → (u.chip.clu cl).job = some j.handle ∧ (u.chip.clu cl).rank = r
                ∧ ∀ k ∈ x.members cl, let y := u.chip.core (3 * cl + k)
                    y.run = .executing ∧ y.sup = false ∧ y.pc = j.entry % 2 ^ 48 ∧ y.g 0 = wNat j.pblock ∧ y.g 1 = wNat r ∧ y.g 2 = wNat n
                      ∧ y.g 3 = wNat j.handle ∧ y.g 15 = wNat (stackTop cl) ∧ (∀ q : Reg, 4 ≤ q.val → q.val < 15 → y.g q = 0#64)
                      ∧ ∀ i < 0x1000, wordIs u.mem (denBase (3 * cl + k) + 8 * i) i 0)))
    ∧ (∀ (h : Nat) (j : Job), x.job h = some j →
      (j.started = false ∨ j.ended ≠ none → exec (.jobComplete h) s = .next s)
      ∧ (j.started = true → j.ended = none → (∃ n ∈ j.clusters, (x.clu n).returned = false ∨ ((x.clu n).slots.any fun e => e.2.inFlight) = true) →
          exec (.jobComplete h) s = .next s)
      ∧ (j.started = true → j.ended = none → (∀ n ∈ j.clusters, (x.clu n).returned = true ∧ ((x.clu n).slots.any fun e => e.2.inFlight) = false
            ∧ x.unconsumed n = none) → answers (.jobComplete h) s fun u => u.mem = s.mem ∧ u.pending = s.pending
          ∧ (∀ n ∈ j.clusters, (u.chip.clu n).job = none)
          ∧ ∃ k, u.chip.job h = some k ∧ k.ended = some ⟨0, (x.clu (j.clusters.headD 0)).retG0, 0#64⟩))
    ∧ ∀ (j : Job) (e : JobEnd), x.job j.handle = some j → j.ended = some e → j.bist = false → j.part < 4 → e.status < 256 → x.badger.restarting = false →
      let o := x.owner j.part
      let d := e.status == St.discarded || e.status == St.aborted
      let row := if d then Instr.discardResponse j.handle else .completionPost j.handle
      (x.jobFlows j.handle = true → exec row s = .next s)
      ∧ (exec (if d then Instr.completionPost j.handle else .discardResponse j.handle) s = .next s)
      ∧ (x.jobFlows j.handle = false → (x.mbx o).rseq < 65536 → (x.mbx o).eseq < 65536 → (x.mbx o).evtQ.length < 4096 →
          (∀ ch < 2, (mget ({} : DoneList) x.mgmt.done (doneKey j.part ch)).handles.length < 4096) → answers row s fun u =>
        u.mem = s.mem ∧ u.pending = s.pending ∧ u.chip.job j.handle = none ∧ u.chip.mbx (1 - o) = x.mbx (1 - o)
        ∧ (∃ w0 w1 : Word, (u.chip.mbx o).rspQ = (x.mbx o).rspQ ++ [[w0, w1, wNat j.handle, e.word1, e.word2, wNat j.startCycle, wNat x.hubCycle]]
            ∧ bits w0.toNat 63 56 = 0xA1 ∧ bits w0.toNat 55 48 = e.status ∧ bits w0.toNat 47 32 = j.tag % 2 ^ 16 ∧ bits w1.toNat 31 0 = 5)
        ∧ (∃ w : Word, (u.chip.mbx o).evtQ = (x.mbx o).evtQ ++ [w] ∧ bits w.toNat 63 60 = 0xE ∧ bits w.toNat 59 51 = 5 ∧ bits w.toNat 50 49 = j.part
            ∧ bits w.toNat 31 0 = j.handle % 2 ^ 32)
        ∧ ∀ ch < 2, (mget ({} : DoneList) u.chip.mgmt.done (doneKey j.part ch)).handles
            = (mget ({} : DoneList) x.mgmt.done (doneKey j.part ch)).handles ++ [j.handle])

/-- R85, R104, R105, Table 4.8: the chain-load call of a kernel answers 1 for an entry outside 16 to 63 and 3 for a record that is misaligned or out of place, and 0 for a good record, which every cluster of the job then holds, over G4 of the frame; the barrier
call keeps a cluster until every cluster of its job has arrived, and then all go on with their data caches invalidated. -/
def Obligations.ExecutiveCallsAnswer : Prop :=
  ∀ (s : State) (cl : Fin 48) (j : Job), let x := s.chip
    let n := cl.val
    (x.clu n).job.bind x.job = some j → x.members n ≠ [] →
    let lead := 3 * n + (x.members n).headD 0
    let arg := fun (k : Nat) => callRead (envOf x n ((x.members n).headD 0)) { x.core lead with sup := true } s.mem ((x.core lead).frame + 0x40) k 0 []
    let slot := fun (k : Nat) => (x.core (3 * n + k)).frame + 0x40 - 0x6FFFFFFE0000
    let inDen := fun (k : Nat) => 0x6FFFFFFE0000 ≤ (x.core (3 * n + k)).frame ∧ (x.core (3 * n + k)).frame % 8 = 0 ∧ slot k < 0xC000
    (((x.members n).all fun k => (x.core (3 * n + k)).inCall 1) = false → exec (.chainLoadCall cl) s = .next s)
    ∧ (((x.members n).all fun k => (x.core (3 * n + k)).inCall 1) = true → ∀ entry a : Word, arg 2 = ([entry, a], .okay, []) →
        let code := if entry.toNat < 16 ∨ 63 < entry.toNat then some 1 else if a.toNat % 8 ≠ 0 ∨ x.recordPlace (envOf x n ((x.members n).headD 0)) j a.toNat = false then some 3 else none
        ∀ v, code = some v → answers (.chainLoadCall cl) s fun u => u.pending = s.pending ∧ u.chip.regs = x.regs
          ∧ (u.chip, u.mem) = storeCode x s.mem n v
          ∧ ∀ k ∈ x.members n, inDen k → denData u (3 * n + k) (slot k) = v)
    ∧ (((x.members n).all fun k => (x.core (3 * n + k)).inCall 1) = true → ∀ entry a : Word, arg 2 = ([entry, a], .okay, []) → ∀ effs ce,
        chainLoad x s.mem (envOf x n ((x.members n).headD 0)) (x.core lead) n j entry.toNat a.toNat = (some 0, effs, ce) → x.applyEffs s.mem effs = x →
        (∀ k ∈ j.clusters, k < 48) → answers (.chainLoadCall cl) s fun u => u.pending = s.pending
          ∧ (∀ k ∈ j.clusters, u.chip.chainEntry k entry.toNat = ce) ∧ ∀ k ∈ x.members n, inDen k → denData u (3 * n + k) (slot k) = 0)
    ∧ ((((x.members n).all fun k => (x.core (3 * n + k)).inCall 2) = false ∨ ((x.clu n).slots.any fun e => e.2.inFlight) = true) →
        exec (.jobBarrierCall cl) s = .next s)
    ∧ (((x.members n).all fun k => (x.core (3 * n + k)).inCall 2) = true → ((x.clu n).slots.any fun e => e.2.inFlight) = false →
        ((∃ k ∈ j.clusters, k ≠ n ∧ (x.clu k).inBarrier = false) → answers (.jobBarrierCall cl) s fun u => u.mem = s.mem ∧ u.pending = s.pending
          ∧ u.chip = x.setClu n { x.clu n with inBarrier := true })
        ∧ ((∀ k ∈ j.clusters, k ≠ n → (x.clu k).inBarrier = true) → answers (.jobBarrierCall cl) s fun u => u.mem = s.mem ∧ u.pending = s.pending
          ∧ u.chip = { x with cores := u.chip.cores, clusters := u.chip.clusters }
          ∧ ∀ k ∈ j.clusters, (u.chip.clu k).inBarrier = false ∧ (u.chip.clu k).barrierOpen = true ∧ ∀ i < 3, (u.chip.core (3 * k + i)).dcache = []))

/-! ## Registers, hub DMA and the hold of cores (chapter 19) -/

/-- R4, R13, R211, R479, R484, Tables 0.2 and 19.2: a write of Badger moves the RW bits, the RWL bits while unlocked, and the bits that a 1 clears or sets, where a 1 over a
W1C bit that the hardware sets in the same cycle clears nothing; a host writes only its mailbox and its LNK registers; the Fox executive writes the chain tables of the dies
that it reaches; a debug session writes from level 2 on, and never what only Badger writes; a write of Badger or the Fox executive to an address that holds no register, and
one of the Fox executive to a die that it does not reach, is latched by the default target of its own die; of the other writers such a write changes nothing. That the row of
the hardware's update comes first is the model's choice (log 78). -/
def Obligations.RegistersTakeWhatTheirWritersMayWrite : Prop :=
  ∀ (s : State) (a : Nat) (w hw : Word), let x := s.chip
    let latches := fun (who : Master) (by' : Who) => answers (.registerWrite who a ⟨w, hw⟩) s fun u => u.mem = s.mem ∧ u.pending = s.pending
      ∧ u.chip = x.deferr by'.die by' true a
    (regDecode a = none → (∀ ch, exec (.registerWrite (.host ch) a ⟨w, hw⟩) s = .next s) ∧ ∀ p, exec (.registerWrite (.debug p) a ⟨w, hw⟩) s = .next s)
    ∧ (a / 2 ^ 44 = 7 → regDecode (a / 8 * 8) = none → latches .badger badgerWho ∧ ∀ cl : Fin 48, latches (.foxExec cl) (foxWho x cl.val true))
    ∧ (∀ d die i k, regDecode (a / 8 * 8) = some (d, die, i, k) → ∀ cl : Fin 48, (3 < die ∨ x.mayReach (foxWho x cl.val true) die = false) →
        latches (.foxExec cl) (foxWho x cl.val true))
    ∧ (∀ d die i k, a % 8 = 0 → regDecode a = some (d, die, i, k) →
      (d.block ∈ [0x01, 0x04, 0x05, 0x06, 0x07, 0x13, 0x15, 0x19] ∨ (d.block = 0x1B ∧ d.off ≠ 0) → (die ≤ 3 → x.linkFenced 4 die = false) →
        answers (.registerWrite .badger a ⟨w, hw⟩) s fun u => u.mem = s.mem
        ∧ u.pending = s.pending ∧ (∀ b, b ≠ a → u.chip.reg b = x.reg b) ∧ u.chip = { x with regs := u.chip.regs }
        ∧ ∀ n < 64, let one := bit w.toNat n && !(bit hw.toNat n && bit d.w1c n)
            bit (u.chip.reg a).toNat n =
            (if one = true ∧ bit d.w1s n = true then true else if one = true ∧ bit d.w1c n = true then false
             else if bit d.rw n = true ∨ (bit d.rwl n = true ∧ x.rwlLocked d.block die k = false) then one else bit (x.reg a).toNat n))
      ∧ (d.block ≠ 0x02 → d.block ≠ 0x03 → ∀ ch, exec (.registerWrite (.host ch) a ⟨w, hw⟩) s = .next s)
      ∧ (∀ p : Fin 4, (x.sessionOpen p.val = false ∨ x.fld (R.DBG_SESSION p.val) F.DBG_SESSION_LEVEL < 2 ∨ die ∉ x.diesOf p.val ∨ onlyBadger d = true) →
          exec (.registerWrite (.debug p) a ⟨w, hw⟩) s = .next s))
    ∧ (∀ (cl : Fin 48) (n j : Nat), n < 48 → j < 256 → a = R.TIL_CHAIN_K n j → x.mayReach (foxWho x cl.val true) (n / 12) = true →
        x.pathFenced (cl.val / 12) (pathDies x (cl.val / 12) (n / 12)) = false →
        answers (.registerWrite (.foxExec cl) a ⟨w, hw⟩) s fun u => u.mem = s.mem ∧ u.chip.reg a = w ∧ (∀ b, b ≠ a → u.chip.reg b = x.reg b)
          ∧ u.chip = { x with regs := u.chip.regs })

/-- R487: START begins a transfer unless the channel is busy or halted, and channels 0 to 5 never take SECURE; the end of a transfer whose pieces all answer has moved every word with fresh
check bits, in the direction of DIR, and leaves BUSY 0, COUNT 0 and MADDR past the last word; a channel that is not busy moves nothing. -/
def Sys2Proof.Claims.HubDmaMovesWords : Prop :=
  ∀ (s : State) (ch : Fin 8), let x := s.chip
    let st := fun (u : State) (f : Fld) => u.chip.fld (R.DMA_STAT ch.val) f
    let ctl := fun (u : State) (f : Fld) => u.chip.fld (R.DMA_CTRL ch.val) f
    (∀ w : Word, answers (.dmaStart ch w) s fun u => u.mem = s.mem ∧ u.pending = s.pending ∧ u.chip = { x with regs := u.chip.regs }
        ∧ (∀ a, a ≠ R.DMA_CTRL ch.val → a ≠ R.DMA_STAT ch.val → u.chip.reg a = x.reg a)
        ∧ ctl u F.DMA_CTRL_PTAG = bits w.toNat 60 59 ∧ ctl u F.DMA_CTRL_DIR = bits w.toNat 56 56
        ∧ ctl u F.DMA_CTRL_SECURE = (if ch.val < 6 then 0 else bits w.toNat 61 61)
        ∧ st u F.DMA_STAT_BUSY = (if bit w.toNat 0 = true ∧ st s F.DMA_STAT_HALTED = 0 then 1 else st s F.DMA_STAT_BUSY))
    ∧ (st s F.DMA_STAT_BUSY = 0 → exec (.dmaTransferDone ch) s = .next s)
    ∧ (st s F.DMA_STAT_BUSY = 1 → let who := dmaWho ch.val (ctl s F.DMA_CTRL_PTAG) (decide (6 ≤ ch.val) && ctl s F.DMA_CTRL_SECURE == 1)
        let n := x.fld (R.DMA_COUNT ch.val) F.DMA_COUNT_WORDS
        let ma := (x.reg (R.DMA_MADDR ch.val)).toNat
        let sa := 0x500000000000 + (x.reg (R.DMA_SADDR ch.val)).toNat
        let src := if ctl s F.DMA_CTRL_DIR = 0 then sa else ma
        let dst := if ctl s F.DMA_CTRL_DIR = 0 then ma else sa
        src % 8 = 0 → dst % 8 = 0 →
        (∀ i < n, (∃ k f l, x.route who (src + 8 * i) false = .word k f l ∧ plain x k l ∧ memChk s.mem k = some (codeCheck (memWord s.mem k) f))
          ∧ (∃ k f l, x.route who (dst + 8 * i) true = .word k f l ∧ plain x k l) ∧ x.silent who (ma + 8 * i) = false) →
        answers (.dmaTransferDone ch) s fun u => u.pending = s.pending ∧ u.chip = { x with regs := u.chip.regs } ∧ st u F.DMA_STAT_BUSY = 0
          ∧ x.fld (R.DMA_STAT ch.val) F.DMA_STAT_HALTED = st u F.DMA_STAT_HALTED
          ∧ u.chip.fld (R.DMA_COUNT ch.val) F.DMA_COUNT_WORDS = 0 ∧ (u.chip.reg (R.DMA_MADDR ch.val)).toNat = (ma + 8 * n) % 2 ^ 48
          ∧ ∀ i < n, ∀ k f l k' f' l', x.route who (src + 8 * i) false = .word k f l → x.route who (dst + 8 * i) true = .word k' f' l' →
              wordIs u.mem k' f' (memWord s.mem k))

/-- R488: clearing HOLD takes ENTRY and releases the unfenced cores that the configuration uses, in supervisor mode and context 0 at ENTRY; setting HOLD takes every unfenced core into
reset, with CONFIG 0, and ends the cluster's job with ST_ABORTED; a fenced or stopped cluster is not released. -/
def Sys2Proof.Claims.HoldReleasesAndResetsCores : Prop :=
  ∀ (s : State) (cl : Fin 48) (w : Word), let x := s.chip
    let n := cl.val
    let hold := fun (u : State) => u.chip.fld (R.FOX_CTRL n) F.FOX_CTRL_HOLD
    let cfg := fun (u : State) => u.chip.fld (R.OWL_STAT n) F.OWL_STAT_CONFIG
    let role := fun (u : State) (k : Nat) => u.chip.fld (R.OWL_CORE n k) F.OWL_CORE_ROLE
    let others := fun (u : State) => ∀ k, k / 3 ≠ n → u.chip.core k = x.core k
    (hold s = 1 → answers (.foxHoldClear cl w) s fun u => u.mem = s.mem ∧ u.pending = s.pending ∧ hold u = 0 ∧ others u
      ∧ u.chip.fld (R.FOX_CTRL n) F.FOX_CTRL_ENTRY = bits w.toNat 47 2
      ∧ (x.cluFenced n = false → (x.clu n).stop = .running → 2 ≤ (x.unfenced n).length →
          cfg u = (if x.cluMode n = 1 then (if (x.unfenced n).length = 3 then 1 else 3) else 2)
          ∧ ∀ k < 3, x.coreFenced n k = false → u.chip.core (3 * n + k) =
              if role u k = 3 then ({} : Core) else { run := .executing, pc := bits w.toNat 47 2 * 4 })
      ∧ ((x.cluFenced n = true ∨ (x.clu n).stop ≠ .running) → u.chip.cores = x.cores))
    ∧ (hold s = 0 → x.cluFenced n = false → answers (.foxHoldSet cl w) s fun u => u.mem = s.mem ∧ u.pending = s.pending ∧ hold u = 1 ∧ cfg u = 0
      ∧ (∀ k < 3, x.coreFenced n k = false → u.chip.core (3 * n + k) = ({} : Core))
      ∧ ∀ j, (x.clu n).job = some j.handle → x.job j.handle = some j → j.ended = none →
          ∃ k, u.chip.job j.handle = some k ∧ k.ended = some ⟨St.aborted, 0#64, 0#64⟩)

/-- R487: START begins a transfer unless the channel is busy or halted, and channels 0 to 5 never take SECURE; the end of a transfer whose pieces all
answer has moved every word with fresh check bits, in the direction of DIR, and leaves BUSY 0, COUNT 0 and MADDR past the last word; a channel that is
not busy moves nothing. R488: clearing HOLD takes ENTRY and releases the unfenced cores that the configuration uses, in supervisor mode and context 0
at ENTRY; setting HOLD takes every unfenced core into reset, with CONFIG 0, and ends the cluster's job with ST_ABORTED; a fenced or stopped cluster is
not released. -/
def Obligations.HubDmaMovesAndHoldReleases : Prop := HubDmaMovesWords ∧ HoldReleasesAndResetsCores

/-! ## Faults (chapter 13) -/

namespace Sys2Proof.Claims

/-- Sources that only report a corrected error (Table 13.7): no reaction and nothing that the hardware starts. -/
def ceSources : List Nat := [0x01, 0x04, 0x10, 0x12, 0x60]

/-- One detection of class `cls` has been recorded at its inst: counted, latched in an empty record with these reaction and recovery codes or
marked as an overrun of a full one, and its event raised. The location code is held at its level (R7). -/
def recorded (s u : State) (d : Detection) (cls react recov : Nat) : Prop :=
  let l := locAt d.level d.loc
  let f := fun (v : State) (g : Fld) => v.chip.fld (R.FLT_STAT d.inst) g
  let n := fun (v : State) (g : Fld) => v.chip.fld (R.FLT_COUNT d.inst) g
  n u F.FLT_COUNT_CE = satAdd (n s F.FLT_COUNT_CE) (if cls = 1 then 1 else 0) 65535
    ∧ n u F.FLT_COUNT_UCC = satAdd (n s F.FLT_COUNT_UCC) (if cls = 2 then 1 else 0) 65535
    ∧ n u F.FLT_COUNT_FTL = satAdd (n s F.FLT_COUNT_FTL) (if cls = 3 then 1 else 0) 255
    ∧ n u F.FLT_COUNT_CONSEQ = satAdd (n s F.FLT_COUNT_CONSEQ) (if cls = 4 then 1 else 0) 65535
    ∧ (f s F.FLT_STAT_VALID = 0 → f u F.FLT_STAT_VALID = 1 ∧ f u F.FLT_STAT_OVF = 0 ∧ f u F.FLT_STAT_CLASS = cls ∧ f u F.FLT_STAT_REACTION = react
        ∧ f u F.FLT_STAT_RECOVERY = recov ∧ f u F.FLT_STAT_LEVEL = d.level % 8 ∧ f u F.FLT_STAT_SOURCE = d.source % 256 ∧ f u F.FLT_STAT_LOC = l
        ∧ f u F.FLT_STAT_PVALID = (if ((locDie l).bind s.chip.partOf).isSome then 1 else 0)
        ∧ f u F.FLT_STAT_PART = (((locDie l).bind s.chip.partOf).getD 0) % 4
        ∧ f u F.FLT_STAT_INJ = (if d.inj then 1 else 0) ∧ f u F.FLT_STAT_INJ_COINCIDENT = (if d.coinc then 1 else 0)
        ∧ u.chip.fld (R.FLT_INFO d.inst) F.FLT_INFO_DETAIL = d.detail % 2 ^ 24 ∧ u.chip.reg (R.FLT_TIME d.inst) = wNat (s.chip.instCycle d.inst))
    ∧ (f s F.FLT_STAT_VALID = 1 → f u F.FLT_STAT_OVF = 1 ∧ u.chip.reg (R.FLT_INFO d.inst) = s.chip.reg (R.FLT_INFO d.inst)
        ∧ u.chip.reg (R.FLT_TIME d.inst) = s.chip.reg (R.FLT_TIME d.inst) ∧ ∀ i < 62, bit (u.chip.reg (R.FLT_STAT d.inst)).toNat i = bit (s.chip.reg (R.FLT_STAT d.inst)).toNat i)

/-- Nothing but the record of one inst, the event lines, the cached lines of cores and the answers of pieces has moved. -/
def recordOnly (s u : State) (inst : Nat) : Prop :=
  u.mem = s.mem ∧ u.pending = s.pending ∧ u.chip = { s.chip with regs := u.chip.regs, faults := u.chip.faults, cores := u.chip.cores, fabric := u.chip.fabric }
    ∧ u.chip.faults = { s.chip.faults with evFlight := s.chip.faults.evFlight ++ [16 + inst], evPar := u.chip.faults.evPar }
    ∧ ∀ a, a ∉ [R.FLT_STAT inst, R.FLT_INFO inst, R.FLT_TIME inst, R.FLT_COUNT inst] → u.chip.reg a = s.chip.reg a

end Sys2Proof.Claims

/-- R354, R355, R367, R369, Tables 13.1 to 13.4: every detection is counted and its event raised; an empty record latches it, a full one only takes OVF; a corrected error brings nothing else, but that a
cache line with a parity error leaves its cache (R329), and a consequential detection at a quarantined boundary nothing but the ABORT of its transfers; of two detections of one cycle the record keeps the higher class, and of one class the lower source; in HALTED detections are only
counted; in Off none is made. -/
def Obligations.DetectionsAreCountedAndLatched : Prop :=
  ∀ (s : State) (d e : Detection), let x := s.chip
    (∀ ds, x.powered = false → exec (.faultDetection ds) s = .next s)
    ∧ (x.powered = true → d.inst ≤ 90 → x.faults.halted = false →
      (d.source ∈ ceSources → answers (.faultDetection [d]) s fun u => recordOnly s u d.inst ∧ recorded s u d 1 0 (x.recovery d) ∧ u.chip.fabric = x.fabric
        ∧ (d.source ≠ 0x04 → u.chip.cores = x.cores)
        ∧ (d.source = 0x04 → d.inst < 48 → let k := 3 * d.inst + d.unit % 3
            let line := d.cls14 / 2 * 64
            (∀ j, j ≠ k → u.chip.core j = x.core j)
              ∧ u.chip.core k = { x.core k with icache := (u.chip.core k).icache, dcache := (u.chip.core k).dcache }
              ∧ ∀ a, mget? (u.chip.core k).icache a = (if d.cls14 % 2 = 1 ∧ a = line then none else mget? (x.core k).icache a)
                ∧ mget? (u.chip.core k).dcache a = (if d.cls14 % 2 = 0 ∧ a = line then none else mget? (x.core k).dcache a)))
      ∧ (x.consequential d = true → answers (.faultDetection [d]) s fun u => recordOnly s u d.inst ∧ recorded s u d 4 0 0 ∧ u.chip.cores = x.cores
        ∧ u.chip.fabric = { x.fabric with out := u.chip.fabric.out } ∧ u.chip.fabric.out.length = x.fabric.out.length
        ∧ ∀ o ∈ u.chip.fabric.out, o ∈ x.fabric.out ∨ (o.answer.map Prod.fst = some 3 ∧ ∃ q ∈ x.fabric.out, q.answer = none ∧ o = { q with answer := o.answer }))
      ∧ (∀ ds, ds ∈ [[d, e], [e, d]] → d.source ∈ ceSources → e.inst = d.inst → x.fld (R.FLT_STAT d.inst) F.FLT_STAT_VALID = 0 →
          (e.source = 0x13 ∨ (e.source ∈ ceSources ∧ e.source < d.source)) → answers (.faultDetection ds) s fun u => u.mem = s.mem ∧ u.pending = s.pending
            ∧ u.chip.fld (R.FLT_STAT d.inst) F.FLT_STAT_SOURCE = e.source ∧ u.chip.fld (R.FLT_STAT d.inst) F.FLT_STAT_LOC = locAt e.level e.loc
            ∧ u.chip.fld (R.FLT_STAT d.inst) F.FLT_STAT_OVF = 1
            ∧ u.chip.fld (R.FLT_COUNT d.inst) F.FLT_COUNT_CE = satAdd (x.fld (R.FLT_COUNT d.inst) F.FLT_COUNT_CE) (if e.source = 0x13 then 1 else 2) 65535))
    ∧ (x.powered = true → d.inst ≤ 90 → d.source ≠ 0 → d.source ≠ 0x50 → x.faults.halted = true → answers (.faultDetection [d]) s fun u => u.mem = s.mem ∧ u.pending = s.pending
        ∧ u.chip = { x with regs := u.chip.regs, faults := u.chip.faults } ∧ u.chip.faults.halted = true ∧ u.chip.faults.quar = x.faults.quar
        ∧ (∀ a, a ≠ R.FLT_COUNT d.inst → a ≠ R.FLT_STAT 90 → u.chip.reg a = x.reg a)
        ∧ (x.consequential d = false → detClass d = 2 → u.chip.fld (R.FLT_COUNT d.inst) F.FLT_COUNT_UCC = satAdd (x.fld (R.FLT_COUNT d.inst) F.FLT_COUNT_UCC) 1 65535))

/-- R36, R358, R362, R366, R369, Tables 13.7 to 13.10: an uncorrectable error discards the job of the access; a fence isolates its pair, its cluster or its pseudo-channel and quarantines the boundaries; a fatal error of a partition outside the SAFE modes fences the
partition and ends its jobs; one in a die of no partition fences the die; a source that always halts the module enters HALTED, with every cluster gated, every job ended and every partition in mode HALTED. -/
def Obligations.ReactionsFenceDiscardAndHalt : Prop :=
  ∀ (s : State) (d : Detection), let x := s.chip
    let ended := fun (u : State) (h : Nat) => ∃ k w, u.chip.job h = some k ∧ k.ended = some ⟨St.discarded, wNat (d.source * 2 ^ 32 + locAt d.level d.loc), w⟩
    x.powered = true → x.faults.halted = false → d.inst ≤ 90 → d.inj = false →
      (∀ j, d.source = 0x11 → d.unit ≠ 1 → d.jobs = [j.handle] → x.job j.handle = some j → j.ended = none →
          answers (.faultDetection [d]) s fun u => u.mem = s.mem ∧ u.pending = s.pending ∧ ended u j.handle ∧ recorded s u d 2 0 6)
      ∧ (d.source = 0x31 → d.inst < 48 → d.unit < 8 → x.tileFenced d.inst (2 * d.unit) = false → answers (.faultDetection [d]) s fun u => u.mem = s.mem ∧ u.pending = s.pending
          ∧ u.chip.tileFenced d.inst (2 * d.unit) = true ∧ u.chip.tileFenced d.inst (2 * d.unit + 1) = true ∧ ∀ b ∈ pairBnds d.inst d.unit, u.chip.quarantined b = true)
      ∧ (d.source = 0x48 → d.inst < 48 → x.cluFenced d.inst = false → answers (.faultDetection [d]) s fun u => u.mem = s.mem ∧ u.pending = s.pending
          ∧ u.chip.cluFenced d.inst = true ∧ u.chip.fld (R.CLK_CLUSTER d.inst) F.CLK_CLUSTER_GATED = 1 ∧ (∀ k < 3, (u.chip.core (3 * d.inst + k)).run = .fenced)
          ∧ ∀ b ∈ cluBnds d.inst, u.chip.quarantined b = true)
      ∧ (∀ die < 4, d.source = 0x18 → d.inst = 53 + 7 * die → d.unit < 64 → x.fld (R.RES_SUB_STAT die) F.RES_SUB_STAT_BUSY = 0 →
          bit (x.reg (R.FLT_FENCE d.inst)).toNat d.unit = false →
          answers (.faultDetection [d]) s fun u => u.mem = s.mem ∧ u.pending = s.pending ∧ bit (u.chip.reg (R.FLT_FENCE d.inst)).toNat d.unit = true
            ∧ (x.fld (R.RES_PCH die d.unit) F.RES_PCH_STATE = 0 → u.chip.fld (R.RES_PCH die d.unit) F.RES_PCH_STATE = 5)
            ∧ (x.fld (R.RES_PCH die d.unit) F.RES_PCH_STATE = 1 → u.chip.fld (R.RES_PCH die d.unit) F.RES_PCH_STATE = 6)
            ∧ ∀ b ∈ pchBnds die d.unit, u.chip.quarantined b = true)
      ∧ (∀ die < 4, d.source ∈ [0x32, 0x49, 0x64] → locAt d.level d.loc / 2 ^ 28 = die →
          (x.partOf die = none → answers (.faultDetection [d]) s fun u => u.mem = s.mem ∧ u.pending = s.pending ∧ u.chip.dieFenced die = true ∧ u.chip.faults.halted = false)
          ∧ (∀ p, x.partOf die = some p → x.safePart p = false → x.fld (R.PAR_STATUS p) F.PAR_STATUS_FENCED = 0 → answers (.faultDetection [d]) s fun u => u.mem = s.mem
              ∧ u.pending = s.pending ∧ u.chip.faults.halted = false ∧ u.chip.fld (R.PAR_STATUS p) F.PAR_STATUS_FENCED = 1
              ∧ (∀ e ∈ x.diesOf p, u.chip.dieFenced e = true ∧ ∀ n ∈ clustersOfDie e, u.chip.cluFenced n = true)
              ∧ ∀ j, j.part = p → x.job j.handle = some j → j.ended = none → ended u j.handle))
      ∧ (d.source ∈ [0x51, 0x61, 0x71, 0x72] → answers (.faultDetection [d]) s fun u => u.mem = s.mem ∧ u.pending = s.pending ∧ u.chip.faults.halted = true
          ∧ u.chip.faults.haltCycle = x.hubCycle ∧ u.chip.pins.safeA = false ∧ u.chip.pins.safeB = true
          ∧ (∀ p < 4, u.chip.fld (R.PAR_STATUS p) F.PAR_STATUS_MODE = 7 ∧ u.chip.fld (R.DBG_SESSION p) F.DBG_SESSION_LEVEL ≤ 1)
          ∧ (∀ n < 48, u.chip.fld (R.CLK_CLUSTER n) F.CLK_CLUSTER_GATED = 1 ∧ u.chip.fld (R.OWL_INJ n) F.OWL_INJ_ARMED = 0)
          ∧ (∀ e < 4, u.chip.fld (R.ECC_BP_CTRL e) F.ECC_BP_CTRL_EN = 0 ∧ u.chip.fld (R.FAB_CTRL e) F.FAB_CTRL_FIXLAT = 0)
          ∧ u.chip.fld (R.FLT_STAT 90) F.FLT_STAT_VALID = 1 ∧ ∀ j, x.job j.handle = some j → j.ended = none → ended u j.handle)

/-- R323, R366, R369, R416, R429: the copy of the fault records to flash holds the module's record and every latched fatal one, once each, and is made in HALTED while Terind runs; a quarantine ends for its boundary alone, once its last count has
reached 4,096 cycles of the boundary's island, and demotes nothing from then on; the restart of the Badger pair
ends with both cores in Terind's code, every command that was accepted and not answered aborted and EV001 raised, or with the module in HALTED. -/
def Obligations.LogsQuarantineAndBadgerRestart : Prop :=
  ∀ (s : State) (b : Nat), let x := s.chip
    let st := x.fld R.HUB_BOOT_STAT F.HUB_BOOT_STAT_STAGE
    (x.faults.halted = true → 5 ≤ st → st ≠ 15 → answers .haltLogCopy s fun u => u.mem = s.mem ∧ u.pending = s.pending
        ∧ u.chip = { x with flash := { x.flash with log := u.chip.flash.log } } ∧ (∃ l, u.chip.flash.log = x.flash.log ++ l)
        ∧ (∀ i ≤ 90, (i = 90 ∨ (x.fld (R.FLT_STAT i) F.FLT_STAT_VALID = 1 ∧ x.fld (R.FLT_STAT i) F.FLT_STAT_CLASS = 3)) → ∃ e ∈ u.chip.flash.log,
            e.stat = x.reg (R.FLT_STAT i) ∧ e.time = x.reg (R.FLT_TIME i) ∧ e.count = x.reg (R.FLT_COUNT i) ∧ e.fence = x.reg (R.FLT_FENCE i)
              ∧ e.gen = (x.viewEntry i).2.2.2 ∧ e.hubTime = x.faults.haltCycle)
        ∧ exec .haltLogCopy u = .next u)
    ∧ ((x.faults.halted = false ∨ st < 5 ∨ st = 15) → exec .haltLogCopy s = .next s)
    ∧ (∀ t, mget? x.faults.quar b = some t → (x.quarantined b = true ↔ x.bndCycle b < t + 4096))
    ∧ (x.quarantined b = true → exec (.quarantineEnd b) s = .next s)
    ∧ (x.quarantined b = false → answers (.quarantineEnd b) s (fun u => u.mem = s.mem ∧ u.pending = s.pending
        ∧ u.chip = { x with faults := { x.faults with quar := u.chip.faults.quar } }
        ∧ ∀ c, mget? u.chip.faults.quar c = if c = b then none else mget? x.faults.quar c))
    ∧ (x.badger.restarting = false → ∀ p q, exec (.badgerRestart p q) s = .next s)
    ∧ (x.badger.restarting = true → x.faults.halted = false →
        (∀ p q, (p && q) = false → answers (.badgerRestart p q) s fun u => u.mem = s.mem ∧ u.pending = s.pending ∧ u.chip.faults.halted = true
            ∧ u.chip.fld (R.FLT_COUNT 78) F.FLT_COUNT_FTL = satAdd (x.fld (R.FLT_COUNT 78) F.FLT_COUNT_FTL) 1 255))
    ∧ (x.badger.restarting = true → answers (.badgerRestart true true) s fun u => u.mem = s.mem ∧ u.pending = s.pending ∧ u.chip.badger.restarting = false
        ∧ (∀ ch < 2, (u.chip.mbx ch).accept = x.flag R.HUB_BOOT_STAT F.HUB_BOOT_STAT_READY ∧ (u.chip.mbx ch).partialWords = []
            ∧ ((x.mbx ch).partialWords ≠ [] → (u.chip.mbx ch).framing = true) ∧ ∃ l, (u.chip.mbx ch).rspQ = (x.mbx ch).rspQ ++ l
                ∧ ((x.mbx ch).rseq < 65536 → ∀ c ∈ x.unanswered, (if c.chain = 0 then 0 else 1) = ch → c.op < 256 → ∃ w0 w1 : Word, [w0, w1] ∈ l
                    ∧ bits w0.toNat 63 56 = 0xA0 ∧ bits w0.toNat 55 48 = St.aborted ∧ bits w0.toNat 47 32 = c.tag % 2 ^ 16 ∧ bits w0.toNat 15 8 = c.op))
        ∧ u.chip.queues.waiting = []
        ∧ (∀ k ∈ [144, 145], (u.chip.core k).run = .executing ∧ (u.chip.core k).sup = true ∧ 0x500000000000 ≤ (u.chip.core k).pc ∧ (u.chip.core k).pc < 0x500000400000)
        ∧ u.chip.faults.evFlight = x.faults.evFlight ++ [1] ∧ mget 0 u.chip.faults.evPar 1 = min 65535 x.unanswered.length)

/-! ## Events and the management view (chapters 13, 16 and 20) -/

/-- R371, R372, R423, R441, R442, R445, R493 to R497, Table 20.1: a toggle sets its line's bit, or MERGED when the bit is set; a scan serves every pending line, clears its bits, refreshes the view of its inst and posts one word with the state at
service, in ascending order, to the owner of its partition or to both chains; the lines that Terind consumes post none; Terind raises the lines 0 to 5 whose bits it writes; the audit rewrites an entry that differs from its inst and raises EV002. -/
def Obligations.EventsArriveAreServedAndAudited : Prop :=
  ∀ (s : State), let x := s.chip
    let pend := fun (u : State) (k : Nat) => bit (u.chip.reg (R.EVR_PEND (k / 64))).toNat (k % 64)
    let merged := fun (u : State) (k : Nat) => bit (u.chip.reg (R.EVR_MERGED (k / 64))).toNat (k % 64)
    (∀ (k : Fin 288) (par : Nat),
      (lineUnused k.val = true → exec (.eventRaise k par) s = .next s)
      ∧ (lineUnused k.val = false → answers (.eventRaise k par) s fun u => u.mem = s.mem ∧ u.pending = s.pending ∧ u.chip = { x with regs := u.chip.regs, faults := u.chip.faults }
          ∧ (∀ a, a ≠ R.EVR_PEND (k.val / 64) → a ≠ R.EVR_MERGED (k.val / 64) → u.chip.reg a = x.reg a) ∧ u.chip.faults.evFlight = x.faults.evFlight.erase k.val
          ∧ pend u k.val = true ∧ merged u k.val = (pend s k.val || merged s k.val) ∧ ∀ j < 288, j ≠ k.val → pend u j = pend s j ∧ merged u j = merged s j))
    ∧ ((x.flag R.HUB_BOOT_STAT F.HUB_BOOT_STAT_READY = false ∨ x.badger.restarting = true) → exec .eventScan s = .next s)
    ∧ (x.flag R.HUB_BOOT_STAT F.HUB_BOOT_STAT_READY = true → x.badger.restarting = false →
        answers .eventScan s (fun u => u.mem = s.mem ∧ u.pending = s.pending
          ∧ u.chip = { x with regs := u.chip.regs, mbxA := u.chip.mbxA, mbxB := u.chip.mbxB, queues := u.chip.queues, mgmt := { x.mgmt with view := u.chip.mgmt.view } }
          ∧ (∀ k < 288, pend u k = false ∧ (pend s k = true → merged u k = false))
          ∧ ∀ i ≤ 90, if pend s (16 + i) = true then u.chip.viewAgrees i = true else u.chip.viewEntry i = x.viewEntry i)
        ∧ ∀ k < 288, (∀ j < 288, pend s j = decide (j = k)) → (∀ ch < 2, (x.mbx ch).evtQ.length < 4096 ∧ (x.mbx ch).eseq < 65536) → answers .eventScan s fun u =>
            let word := fun (ch p v : Nat) => wNat (0xE * 2 ^ 60 + k * 2 ^ 51 + p * 2 ^ 49 + v * 2 ^ 48 + (x.mbx ch).eseq * 2 ^ 32 + x.lineDetail k % 2 ^ 32)
            let gets := fun (ch p v : Nat) => (u.chip.mbx ch).evtQ = (x.mbx ch).evtQ ++ [word ch p v] ∧ (u.chip.mbx ch).eseq = ((x.mbx ch).eseq + 1) % 65536
            let none' := fun (ch : Nat) => u.chip.mbx ch = x.mbx ch
            if lineConsumed k then none' 0 ∧ none' 1
            else match x.linePart k with
              | some p => if k = 3 then gets 0 (p % 4) 1 ∧ gets 1 (p % 4) 1 else gets (x.owner p) (p % 4) 1 ∧ none' (1 - x.owner p)
              | none => gets 0 0 0 ∧ gets 1 0 0)
    ∧ (∀ w : Word, answers (.evrSwset w) s fun u => u.mem = s.mem ∧ u.pending = s.pending ∧ u.chip = { x with faults := u.chip.faults }
        ∧ u.chip.faults.evFlight = x.faults.evFlight ++ (List.range 6).filter (fun k => bit w.toNat k))
    ∧ ((∀ i ≤ 90, x.viewAgrees i = true ∨ x.linePending (16 + i) = true) ∨ x.badger.restarting = true → exec .viewAudit s = .next s)
    ∧ ∀ i ≤ 90, x.badger.restarting = false → x.viewAgrees i = false → x.linePending (16 + i) = false → (∀ j ≤ 90, j ≠ i → x.viewAgrees j = true) →
        answers .viewAudit s fun u => u.mem = s.mem ∧ u.pending = s.pending ∧ u.chip.regs = x.regs ∧ u.chip.viewAgrees i = true
          ∧ (u.chip.viewEntry i).2.2.2 = ((x.viewEntry i).2.2.2 + 1) % 65536 ∧ (∀ j, j ≠ i → u.chip.viewEntry j = x.viewEntry j)
          ∧ u.chip.faults.evFlight = x.faults.evFlight ++ [2] ∧ mget 0 u.chip.faults.evPar 2 = ((x.viewEntry i).2.2.2 + 1) % 65536 * 65536 + i
end

