-- ==== Sys2Proof/Laws/Maps.lean ====
section
/-! SUPPORT. Laws/Maps.lean: what a sparse map reads after one key is set or removed. -/

namespace Sys2Proof.Machine

@[simp] theorem mget?_mset_self {α : Type} (l : List (Nat × α)) (i : Nat) (x : α) : mget? (mset l i x) i = some x := by
  induction l with
  | nil => simp [mset, mget?]
  | cons p r ih =>
    obtain ⟨k, v⟩ := p
    unfold mset
    split
    · simp [mget?]
    · split
      · simp [mget?]
      · rename_i h1 h2
        simp [mget?, h2, ih]

theorem mget?_mset_ne {α : Type} (l : List (Nat × α)) {i j : Nat} (x : α) (h : j ≠ i) :
    mget? (mset l i x) j = mget? l j := by
  induction l with
  | nil => simp [mset, mget?, h]
  | cons p r ih =>
    obtain ⟨k, v⟩ := p
    unfold mset
    split
    · simp [mget?, h]
    · split
      · rename_i h1 h2
        subst h2
        simp [mget?, h]
      · simp [mget?, ih]

@[simp] theorem mget_mset_self {α : Type} (d : α) (l : List (Nat × α)) (i : Nat) (x : α) : mget d (mset l i x) i = x := by
  induction l with
  | nil => simp [mset, mget]
  | cons p r ih =>
    obtain ⟨k, v⟩ := p
    unfold mset
    split
    · simp [mget]
    · split
      · simp [mget]
      · rename_i h1 h2
        simp [mget, h2, ih]

theorem mget_mset_ne {α : Type} (d : α) (l : List (Nat × α)) {i j : Nat} (x : α) (h : j ≠ i) :
    mget d (mset l i x) j = mget d l j := by
  induction l with
  | nil => simp [mset, mget, h]
  | cons p r ih =>
    obtain ⟨k, v⟩ := p
    unfold mset
    split
    · simp [mget, h]
    · split
      · rename_i h1 h2
        subst h2
        simp [mget, h]
      · simp [mget, ih]

theorem mget?_mdel_ne {α : Type} (l : List (Nat × α)) {i j : Nat} (h : j ≠ i) : mget? (mdel l i) j = mget? l j := by
  induction l with
  | nil => rfl
  | cons p r ih =>
    obtain ⟨k, v⟩ := p
    unfold mdel
    split
    · rename_i h1
      subst h1
      simp [mget?, h]
    · simp [mget?, ih]

end Sys2Proof.Machine
end

