-- ==== Sys2Proof/Laws/State.lean ====
section
/-! SUPPORT. Laws/State.lean: what each named update of the module leaves alone, field by field, and what it reads back. -/

namespace Sys2Proof.Machine

variable (c : Chip)

/-! ### Chip.setReg -/

@[simp] theorem Chip.setReg_now (a : Nat) (w : Word) : (c.setReg a w).now = c.now := rfl
@[simp] theorem Chip.setReg_resetAt (a : Nat) (w : Word) : (c.setReg a w).resetAt = c.resetAt := rfl
@[simp] theorem Chip.setReg_islands (a : Nat) (w : Word) : (c.setReg a w).islands = c.islands := rfl
@[simp] theorem Chip.setReg_rawAt (a : Nat) (w : Word) : (c.setReg a w).rawAt = c.rawAt := rfl
@[simp] theorem Chip.setReg_powered (a : Nat) (w : Word) : (c.setReg a w).powered = c.powered := rfl
@[simp] theorem Chip.setReg_freeCtr (a : Nat) (w : Word) : (c.setReg a w).freeCtr = c.freeCtr := rfl
@[simp] theorem Chip.setReg_cores (a : Nat) (w : Word) : (c.setReg a w).cores = c.cores := rfl
@[simp] theorem Chip.setReg_clusters (a : Nat) (w : Word) : (c.setReg a w).clusters = c.clusters := rfl
@[simp] theorem Chip.setReg_tiles (a : Nat) (w : Word) : (c.setReg a w).tiles = c.tiles := rfl
@[simp] theorem Chip.setReg_badger (a : Nat) (w : Word) : (c.setReg a w).badger = c.badger := rfl
@[simp] theorem Chip.setReg_mgmt (a : Nat) (w : Word) : (c.setReg a w).mgmt = c.mgmt := rfl
@[simp] theorem Chip.setReg_mbxA (a : Nat) (w : Word) : (c.setReg a w).mbxA = c.mbxA := rfl
@[simp] theorem Chip.setReg_queues (a : Nat) (w : Word) : (c.setReg a w).queues = c.queues := rfl
@[simp] theorem Chip.setReg_mbxB (a : Nat) (w : Word) : (c.setReg a w).mbxB = c.mbxB := rfl
@[simp] theorem Chip.setReg_domains (a : Nat) (w : Word) : (c.setReg a w).domains = c.domains := rfl
@[simp] theorem Chip.setReg_fabric (a : Nat) (w : Word) : (c.setReg a w).fabric = c.fabric := rfl
@[simp] theorem Chip.setReg_faults (a : Nat) (w : Word) : (c.setReg a w).faults = c.faults := rfl
@[simp] theorem Chip.setReg_ports (a : Nat) (w : Word) : (c.setReg a w).ports = c.ports := rfl
@[simp] theorem Chip.setReg_flash (a : Nat) (w : Word) : (c.setReg a w).flash = c.flash := rfl
@[simp] theorem Chip.setReg_fuses (a : Nat) (w : Word) : (c.setReg a w).fuses = c.fuses := rfl
@[simp] theorem Chip.setReg_sec (a : Nat) (w : Word) : (c.setReg a w).sec = c.sec := rfl
@[simp] theorem Chip.setReg_pins (a : Nat) (w : Word) : (c.setReg a w).pins = c.pins := rfl
@[simp] theorem Chip.setReg_svc (a : Nat) (w : Word) : (c.setReg a w).svc = c.svc := rfl

/-! ### Chip.setFld -/

@[simp] theorem Chip.setFld_now (a : Nat) (f : Fld) (v : Nat) : (c.setFld a f v).now = c.now := rfl
@[simp] theorem Chip.setFld_resetAt (a : Nat) (f : Fld) (v : Nat) : (c.setFld a f v).resetAt = c.resetAt := rfl
@[simp] theorem Chip.setFld_islands (a : Nat) (f : Fld) (v : Nat) : (c.setFld a f v).islands = c.islands := rfl
@[simp] theorem Chip.setFld_rawAt (a : Nat) (f : Fld) (v : Nat) : (c.setFld a f v).rawAt = c.rawAt := rfl
@[simp] theorem Chip.setFld_powered (a : Nat) (f : Fld) (v : Nat) : (c.setFld a f v).powered = c.powered := rfl
@[simp] theorem Chip.setFld_freeCtr (a : Nat) (f : Fld) (v : Nat) : (c.setFld a f v).freeCtr = c.freeCtr := rfl
@[simp] theorem Chip.setFld_cores (a : Nat) (f : Fld) (v : Nat) : (c.setFld a f v).cores = c.cores := rfl
@[simp] theorem Chip.setFld_clusters (a : Nat) (f : Fld) (v : Nat) : (c.setFld a f v).clusters = c.clusters := rfl
@[simp] theorem Chip.setFld_tiles (a : Nat) (f : Fld) (v : Nat) : (c.setFld a f v).tiles = c.tiles := rfl
@[simp] theorem Chip.setFld_badger (a : Nat) (f : Fld) (v : Nat) : (c.setFld a f v).badger = c.badger := rfl
@[simp] theorem Chip.setFld_mgmt (a : Nat) (f : Fld) (v : Nat) : (c.setFld a f v).mgmt = c.mgmt := rfl
@[simp] theorem Chip.setFld_mbxA (a : Nat) (f : Fld) (v : Nat) : (c.setFld a f v).mbxA = c.mbxA := rfl
@[simp] theorem Chip.setFld_queues (a : Nat) (f : Fld) (v : Nat) : (c.setFld a f v).queues = c.queues := rfl
@[simp] theorem Chip.setFld_mbxB (a : Nat) (f : Fld) (v : Nat) : (c.setFld a f v).mbxB = c.mbxB := rfl
@[simp] theorem Chip.setFld_domains (a : Nat) (f : Fld) (v : Nat) : (c.setFld a f v).domains = c.domains := rfl
@[simp] theorem Chip.setFld_fabric (a : Nat) (f : Fld) (v : Nat) : (c.setFld a f v).fabric = c.fabric := rfl
@[simp] theorem Chip.setFld_faults (a : Nat) (f : Fld) (v : Nat) : (c.setFld a f v).faults = c.faults := rfl
@[simp] theorem Chip.setFld_ports (a : Nat) (f : Fld) (v : Nat) : (c.setFld a f v).ports = c.ports := rfl
@[simp] theorem Chip.setFld_flash (a : Nat) (f : Fld) (v : Nat) : (c.setFld a f v).flash = c.flash := rfl
@[simp] theorem Chip.setFld_fuses (a : Nat) (f : Fld) (v : Nat) : (c.setFld a f v).fuses = c.fuses := rfl
@[simp] theorem Chip.setFld_sec (a : Nat) (f : Fld) (v : Nat) : (c.setFld a f v).sec = c.sec := rfl
@[simp] theorem Chip.setFld_pins (a : Nat) (f : Fld) (v : Nat) : (c.setFld a f v).pins = c.pins := rfl
@[simp] theorem Chip.setFld_svc (a : Nat) (f : Fld) (v : Nat) : (c.setFld a f v).svc = c.svc := rfl

/-! ### Chip.addFld -/

@[simp] theorem Chip.addFld_now (a : Nat) (f : Fld) (v : Nat) : (c.addFld a f v).now = c.now := rfl
@[simp] theorem Chip.addFld_resetAt (a : Nat) (f : Fld) (v : Nat) : (c.addFld a f v).resetAt = c.resetAt := rfl
@[simp] theorem Chip.addFld_islands (a : Nat) (f : Fld) (v : Nat) : (c.addFld a f v).islands = c.islands := rfl
@[simp] theorem Chip.addFld_rawAt (a : Nat) (f : Fld) (v : Nat) : (c.addFld a f v).rawAt = c.rawAt := rfl
@[simp] theorem Chip.addFld_powered (a : Nat) (f : Fld) (v : Nat) : (c.addFld a f v).powered = c.powered := rfl
@[simp] theorem Chip.addFld_freeCtr (a : Nat) (f : Fld) (v : Nat) : (c.addFld a f v).freeCtr = c.freeCtr := rfl
@[simp] theorem Chip.addFld_cores (a : Nat) (f : Fld) (v : Nat) : (c.addFld a f v).cores = c.cores := rfl
@[simp] theorem Chip.addFld_clusters (a : Nat) (f : Fld) (v : Nat) : (c.addFld a f v).clusters = c.clusters := rfl
@[simp] theorem Chip.addFld_tiles (a : Nat) (f : Fld) (v : Nat) : (c.addFld a f v).tiles = c.tiles := rfl
@[simp] theorem Chip.addFld_badger (a : Nat) (f : Fld) (v : Nat) : (c.addFld a f v).badger = c.badger := rfl
@[simp] theorem Chip.addFld_mgmt (a : Nat) (f : Fld) (v : Nat) : (c.addFld a f v).mgmt = c.mgmt := rfl
@[simp] theorem Chip.addFld_mbxA (a : Nat) (f : Fld) (v : Nat) : (c.addFld a f v).mbxA = c.mbxA := rfl
@[simp] theorem Chip.addFld_queues (a : Nat) (f : Fld) (v : Nat) : (c.addFld a f v).queues = c.queues := rfl
@[simp] theorem Chip.addFld_mbxB (a : Nat) (f : Fld) (v : Nat) : (c.addFld a f v).mbxB = c.mbxB := rfl
@[simp] theorem Chip.addFld_domains (a : Nat) (f : Fld) (v : Nat) : (c.addFld a f v).domains = c.domains := rfl
@[simp] theorem Chip.addFld_fabric (a : Nat) (f : Fld) (v : Nat) : (c.addFld a f v).fabric = c.fabric := rfl
@[simp] theorem Chip.addFld_faults (a : Nat) (f : Fld) (v : Nat) : (c.addFld a f v).faults = c.faults := rfl
@[simp] theorem Chip.addFld_ports (a : Nat) (f : Fld) (v : Nat) : (c.addFld a f v).ports = c.ports := rfl
@[simp] theorem Chip.addFld_flash (a : Nat) (f : Fld) (v : Nat) : (c.addFld a f v).flash = c.flash := rfl
@[simp] theorem Chip.addFld_fuses (a : Nat) (f : Fld) (v : Nat) : (c.addFld a f v).fuses = c.fuses := rfl
@[simp] theorem Chip.addFld_sec (a : Nat) (f : Fld) (v : Nat) : (c.addFld a f v).sec = c.sec := rfl
@[simp] theorem Chip.addFld_pins (a : Nat) (f : Fld) (v : Nat) : (c.addFld a f v).pins = c.pins := rfl
@[simp] theorem Chip.addFld_svc (a : Nat) (f : Fld) (v : Nat) : (c.addFld a f v).svc = c.svc := rfl

/-! ### Chip.setCore -/

@[simp] theorem Chip.setCore_now (k : Nat) (x : Core) : (c.setCore k x).now = c.now := rfl
@[simp] theorem Chip.setCore_resetAt (k : Nat) (x : Core) : (c.setCore k x).resetAt = c.resetAt := rfl
@[simp] theorem Chip.setCore_islands (k : Nat) (x : Core) : (c.setCore k x).islands = c.islands := rfl
@[simp] theorem Chip.setCore_rawAt (k : Nat) (x : Core) : (c.setCore k x).rawAt = c.rawAt := rfl
@[simp] theorem Chip.setCore_powered (k : Nat) (x : Core) : (c.setCore k x).powered = c.powered := rfl
@[simp] theorem Chip.setCore_freeCtr (k : Nat) (x : Core) : (c.setCore k x).freeCtr = c.freeCtr := rfl
@[simp] theorem Chip.setCore_regs (k : Nat) (x : Core) : (c.setCore k x).regs = c.regs := rfl
@[simp] theorem Chip.setCore_clusters (k : Nat) (x : Core) : (c.setCore k x).clusters = c.clusters := rfl
@[simp] theorem Chip.setCore_tiles (k : Nat) (x : Core) : (c.setCore k x).tiles = c.tiles := rfl
@[simp] theorem Chip.setCore_badger (k : Nat) (x : Core) : (c.setCore k x).badger = c.badger := rfl
@[simp] theorem Chip.setCore_mgmt (k : Nat) (x : Core) : (c.setCore k x).mgmt = c.mgmt := rfl
@[simp] theorem Chip.setCore_mbxA (k : Nat) (x : Core) : (c.setCore k x).mbxA = c.mbxA := rfl
@[simp] theorem Chip.setCore_queues (k : Nat) (x : Core) : (c.setCore k x).queues = c.queues := rfl
@[simp] theorem Chip.setCore_mbxB (k : Nat) (x : Core) : (c.setCore k x).mbxB = c.mbxB := rfl
@[simp] theorem Chip.setCore_domains (k : Nat) (x : Core) : (c.setCore k x).domains = c.domains := rfl
@[simp] theorem Chip.setCore_fabric (k : Nat) (x : Core) : (c.setCore k x).fabric = c.fabric := rfl
@[simp] theorem Chip.setCore_faults (k : Nat) (x : Core) : (c.setCore k x).faults = c.faults := rfl
@[simp] theorem Chip.setCore_ports (k : Nat) (x : Core) : (c.setCore k x).ports = c.ports := rfl
@[simp] theorem Chip.setCore_flash (k : Nat) (x : Core) : (c.setCore k x).flash = c.flash := rfl
@[simp] theorem Chip.setCore_fuses (k : Nat) (x : Core) : (c.setCore k x).fuses = c.fuses := rfl
@[simp] theorem Chip.setCore_sec (k : Nat) (x : Core) : (c.setCore k x).sec = c.sec := rfl
@[simp] theorem Chip.setCore_pins (k : Nat) (x : Core) : (c.setCore k x).pins = c.pins := rfl
@[simp] theorem Chip.setCore_svc (k : Nat) (x : Core) : (c.setCore k x).svc = c.svc := rfl

/-! ### Chip.setClu -/

@[simp] theorem Chip.setClu_now (n : Nat) (x : Cluster) : (c.setClu n x).now = c.now := rfl
@[simp] theorem Chip.setClu_resetAt (n : Nat) (x : Cluster) : (c.setClu n x).resetAt = c.resetAt := rfl
@[simp] theorem Chip.setClu_islands (n : Nat) (x : Cluster) : (c.setClu n x).islands = c.islands := rfl
@[simp] theorem Chip.setClu_rawAt (n : Nat) (x : Cluster) : (c.setClu n x).rawAt = c.rawAt := rfl
@[simp] theorem Chip.setClu_powered (n : Nat) (x : Cluster) : (c.setClu n x).powered = c.powered := rfl
@[simp] theorem Chip.setClu_freeCtr (n : Nat) (x : Cluster) : (c.setClu n x).freeCtr = c.freeCtr := rfl
@[simp] theorem Chip.setClu_regs (n : Nat) (x : Cluster) : (c.setClu n x).regs = c.regs := rfl
@[simp] theorem Chip.setClu_cores (n : Nat) (x : Cluster) : (c.setClu n x).cores = c.cores := rfl
@[simp] theorem Chip.setClu_tiles (n : Nat) (x : Cluster) : (c.setClu n x).tiles = c.tiles := rfl
@[simp] theorem Chip.setClu_badger (n : Nat) (x : Cluster) : (c.setClu n x).badger = c.badger := rfl
@[simp] theorem Chip.setClu_mgmt (n : Nat) (x : Cluster) : (c.setClu n x).mgmt = c.mgmt := rfl
@[simp] theorem Chip.setClu_mbxA (n : Nat) (x : Cluster) : (c.setClu n x).mbxA = c.mbxA := rfl
@[simp] theorem Chip.setClu_queues (n : Nat) (x : Cluster) : (c.setClu n x).queues = c.queues := rfl
@[simp] theorem Chip.setClu_mbxB (n : Nat) (x : Cluster) : (c.setClu n x).mbxB = c.mbxB := rfl
@[simp] theorem Chip.setClu_domains (n : Nat) (x : Cluster) : (c.setClu n x).domains = c.domains := rfl
@[simp] theorem Chip.setClu_fabric (n : Nat) (x : Cluster) : (c.setClu n x).fabric = c.fabric := rfl
@[simp] theorem Chip.setClu_faults (n : Nat) (x : Cluster) : (c.setClu n x).faults = c.faults := rfl
@[simp] theorem Chip.setClu_ports (n : Nat) (x : Cluster) : (c.setClu n x).ports = c.ports := rfl
@[simp] theorem Chip.setClu_flash (n : Nat) (x : Cluster) : (c.setClu n x).flash = c.flash := rfl
@[simp] theorem Chip.setClu_fuses (n : Nat) (x : Cluster) : (c.setClu n x).fuses = c.fuses := rfl
@[simp] theorem Chip.setClu_sec (n : Nat) (x : Cluster) : (c.setClu n x).sec = c.sec := rfl
@[simp] theorem Chip.setClu_pins (n : Nat) (x : Cluster) : (c.setClu n x).pins = c.pins := rfl
@[simp] theorem Chip.setClu_svc (n : Nat) (x : Cluster) : (c.setClu n x).svc = c.svc := rfl

/-! ### Chip.setSlot -/

@[simp] theorem Chip.setSlot_now (n k : Nat) (x : Slot) : (c.setSlot n k x).now = c.now := rfl
@[simp] theorem Chip.setSlot_resetAt (n k : Nat) (x : Slot) : (c.setSlot n k x).resetAt = c.resetAt := rfl
@[simp] theorem Chip.setSlot_islands (n k : Nat) (x : Slot) : (c.setSlot n k x).islands = c.islands := rfl
@[simp] theorem Chip.setSlot_rawAt (n k : Nat) (x : Slot) : (c.setSlot n k x).rawAt = c.rawAt := rfl
@[simp] theorem Chip.setSlot_powered (n k : Nat) (x : Slot) : (c.setSlot n k x).powered = c.powered := rfl
@[simp] theorem Chip.setSlot_freeCtr (n k : Nat) (x : Slot) : (c.setSlot n k x).freeCtr = c.freeCtr := rfl
@[simp] theorem Chip.setSlot_regs (n k : Nat) (x : Slot) : (c.setSlot n k x).regs = c.regs := rfl
@[simp] theorem Chip.setSlot_cores (n k : Nat) (x : Slot) : (c.setSlot n k x).cores = c.cores := rfl
@[simp] theorem Chip.setSlot_tiles (n k : Nat) (x : Slot) : (c.setSlot n k x).tiles = c.tiles := rfl
@[simp] theorem Chip.setSlot_badger (n k : Nat) (x : Slot) : (c.setSlot n k x).badger = c.badger := rfl
@[simp] theorem Chip.setSlot_mgmt (n k : Nat) (x : Slot) : (c.setSlot n k x).mgmt = c.mgmt := rfl
@[simp] theorem Chip.setSlot_mbxA (n k : Nat) (x : Slot) : (c.setSlot n k x).mbxA = c.mbxA := rfl
@[simp] theorem Chip.setSlot_queues (n k : Nat) (x : Slot) : (c.setSlot n k x).queues = c.queues := rfl
@[simp] theorem Chip.setSlot_mbxB (n k : Nat) (x : Slot) : (c.setSlot n k x).mbxB = c.mbxB := rfl
@[simp] theorem Chip.setSlot_domains (n k : Nat) (x : Slot) : (c.setSlot n k x).domains = c.domains := rfl
@[simp] theorem Chip.setSlot_fabric (n k : Nat) (x : Slot) : (c.setSlot n k x).fabric = c.fabric := rfl
@[simp] theorem Chip.setSlot_faults (n k : Nat) (x : Slot) : (c.setSlot n k x).faults = c.faults := rfl
@[simp] theorem Chip.setSlot_ports (n k : Nat) (x : Slot) : (c.setSlot n k x).ports = c.ports := rfl
@[simp] theorem Chip.setSlot_flash (n k : Nat) (x : Slot) : (c.setSlot n k x).flash = c.flash := rfl
@[simp] theorem Chip.setSlot_fuses (n k : Nat) (x : Slot) : (c.setSlot n k x).fuses = c.fuses := rfl
@[simp] theorem Chip.setSlot_sec (n k : Nat) (x : Slot) : (c.setSlot n k x).sec = c.sec := rfl
@[simp] theorem Chip.setSlot_pins (n k : Nat) (x : Slot) : (c.setSlot n k x).pins = c.pins := rfl
@[simp] theorem Chip.setSlot_svc (n k : Nat) (x : Slot) : (c.setSlot n k x).svc = c.svc := rfl

/-! ### Chip.setTile -/

@[simp] theorem Chip.setTile_now (n : Nat) (x : Tile) : (c.setTile n x).now = c.now := rfl
@[simp] theorem Chip.setTile_resetAt (n : Nat) (x : Tile) : (c.setTile n x).resetAt = c.resetAt := rfl
@[simp] theorem Chip.setTile_islands (n : Nat) (x : Tile) : (c.setTile n x).islands = c.islands := rfl
@[simp] theorem Chip.setTile_rawAt (n : Nat) (x : Tile) : (c.setTile n x).rawAt = c.rawAt := rfl
@[simp] theorem Chip.setTile_powered (n : Nat) (x : Tile) : (c.setTile n x).powered = c.powered := rfl
@[simp] theorem Chip.setTile_freeCtr (n : Nat) (x : Tile) : (c.setTile n x).freeCtr = c.freeCtr := rfl
@[simp] theorem Chip.setTile_regs (n : Nat) (x : Tile) : (c.setTile n x).regs = c.regs := rfl
@[simp] theorem Chip.setTile_cores (n : Nat) (x : Tile) : (c.setTile n x).cores = c.cores := rfl
@[simp] theorem Chip.setTile_clusters (n : Nat) (x : Tile) : (c.setTile n x).clusters = c.clusters := rfl
@[simp] theorem Chip.setTile_badger (n : Nat) (x : Tile) : (c.setTile n x).badger = c.badger := rfl
@[simp] theorem Chip.setTile_mgmt (n : Nat) (x : Tile) : (c.setTile n x).mgmt = c.mgmt := rfl
@[simp] theorem Chip.setTile_mbxA (n : Nat) (x : Tile) : (c.setTile n x).mbxA = c.mbxA := rfl
@[simp] theorem Chip.setTile_queues (n : Nat) (x : Tile) : (c.setTile n x).queues = c.queues := rfl
@[simp] theorem Chip.setTile_mbxB (n : Nat) (x : Tile) : (c.setTile n x).mbxB = c.mbxB := rfl
@[simp] theorem Chip.setTile_domains (n : Nat) (x : Tile) : (c.setTile n x).domains = c.domains := rfl
@[simp] theorem Chip.setTile_fabric (n : Nat) (x : Tile) : (c.setTile n x).fabric = c.fabric := rfl
@[simp] theorem Chip.setTile_faults (n : Nat) (x : Tile) : (c.setTile n x).faults = c.faults := rfl
@[simp] theorem Chip.setTile_ports (n : Nat) (x : Tile) : (c.setTile n x).ports = c.ports := rfl
@[simp] theorem Chip.setTile_flash (n : Nat) (x : Tile) : (c.setTile n x).flash = c.flash := rfl
@[simp] theorem Chip.setTile_fuses (n : Nat) (x : Tile) : (c.setTile n x).fuses = c.fuses := rfl
@[simp] theorem Chip.setTile_sec (n : Nat) (x : Tile) : (c.setTile n x).sec = c.sec := rfl
@[simp] theorem Chip.setTile_pins (n : Nat) (x : Tile) : (c.setTile n x).pins = c.pins := rfl
@[simp] theorem Chip.setTile_svc (n : Nat) (x : Tile) : (c.setTile n x).svc = c.svc := rfl

/-! ### Chip.setDom -/

@[simp] theorem Chip.setDom_now (d : Nat) (x : Domain) : (c.setDom d x).now = c.now := rfl
@[simp] theorem Chip.setDom_resetAt (d : Nat) (x : Domain) : (c.setDom d x).resetAt = c.resetAt := rfl
@[simp] theorem Chip.setDom_islands (d : Nat) (x : Domain) : (c.setDom d x).islands = c.islands := rfl
@[simp] theorem Chip.setDom_rawAt (d : Nat) (x : Domain) : (c.setDom d x).rawAt = c.rawAt := rfl
@[simp] theorem Chip.setDom_powered (d : Nat) (x : Domain) : (c.setDom d x).powered = c.powered := rfl
@[simp] theorem Chip.setDom_freeCtr (d : Nat) (x : Domain) : (c.setDom d x).freeCtr = c.freeCtr := rfl
@[simp] theorem Chip.setDom_regs (d : Nat) (x : Domain) : (c.setDom d x).regs = c.regs := rfl
@[simp] theorem Chip.setDom_cores (d : Nat) (x : Domain) : (c.setDom d x).cores = c.cores := rfl
@[simp] theorem Chip.setDom_clusters (d : Nat) (x : Domain) : (c.setDom d x).clusters = c.clusters := rfl
@[simp] theorem Chip.setDom_tiles (d : Nat) (x : Domain) : (c.setDom d x).tiles = c.tiles := rfl
@[simp] theorem Chip.setDom_badger (d : Nat) (x : Domain) : (c.setDom d x).badger = c.badger := rfl
@[simp] theorem Chip.setDom_mgmt (d : Nat) (x : Domain) : (c.setDom d x).mgmt = c.mgmt := rfl
@[simp] theorem Chip.setDom_mbxA (d : Nat) (x : Domain) : (c.setDom d x).mbxA = c.mbxA := rfl
@[simp] theorem Chip.setDom_queues (d : Nat) (x : Domain) : (c.setDom d x).queues = c.queues := rfl
@[simp] theorem Chip.setDom_mbxB (d : Nat) (x : Domain) : (c.setDom d x).mbxB = c.mbxB := rfl
@[simp] theorem Chip.setDom_fabric (d : Nat) (x : Domain) : (c.setDom d x).fabric = c.fabric := rfl
@[simp] theorem Chip.setDom_faults (d : Nat) (x : Domain) : (c.setDom d x).faults = c.faults := rfl
@[simp] theorem Chip.setDom_ports (d : Nat) (x : Domain) : (c.setDom d x).ports = c.ports := rfl
@[simp] theorem Chip.setDom_flash (d : Nat) (x : Domain) : (c.setDom d x).flash = c.flash := rfl
@[simp] theorem Chip.setDom_fuses (d : Nat) (x : Domain) : (c.setDom d x).fuses = c.fuses := rfl
@[simp] theorem Chip.setDom_sec (d : Nat) (x : Domain) : (c.setDom d x).sec = c.sec := rfl
@[simp] theorem Chip.setDom_pins (d : Nat) (x : Domain) : (c.setDom d x).pins = c.pins := rfl
@[simp] theorem Chip.setDom_svc (d : Nat) (x : Domain) : (c.setDom d x).svc = c.svc := rfl

/-! ### Chip.setPort -/

@[simp] theorem Chip.setPort_now (p : Nat) (x : Port) : (c.setPort p x).now = c.now := rfl
@[simp] theorem Chip.setPort_resetAt (p : Nat) (x : Port) : (c.setPort p x).resetAt = c.resetAt := rfl
@[simp] theorem Chip.setPort_islands (p : Nat) (x : Port) : (c.setPort p x).islands = c.islands := rfl
@[simp] theorem Chip.setPort_rawAt (p : Nat) (x : Port) : (c.setPort p x).rawAt = c.rawAt := rfl
@[simp] theorem Chip.setPort_powered (p : Nat) (x : Port) : (c.setPort p x).powered = c.powered := rfl
@[simp] theorem Chip.setPort_freeCtr (p : Nat) (x : Port) : (c.setPort p x).freeCtr = c.freeCtr := rfl
@[simp] theorem Chip.setPort_regs (p : Nat) (x : Port) : (c.setPort p x).regs = c.regs := rfl
@[simp] theorem Chip.setPort_cores (p : Nat) (x : Port) : (c.setPort p x).cores = c.cores := rfl
@[simp] theorem Chip.setPort_clusters (p : Nat) (x : Port) : (c.setPort p x).clusters = c.clusters := rfl
@[simp] theorem Chip.setPort_tiles (p : Nat) (x : Port) : (c.setPort p x).tiles = c.tiles := rfl
@[simp] theorem Chip.setPort_badger (p : Nat) (x : Port) : (c.setPort p x).badger = c.badger := rfl
@[simp] theorem Chip.setPort_mgmt (p : Nat) (x : Port) : (c.setPort p x).mgmt = c.mgmt := rfl
@[simp] theorem Chip.setPort_mbxA (p : Nat) (x : Port) : (c.setPort p x).mbxA = c.mbxA := rfl
@[simp] theorem Chip.setPort_queues (p : Nat) (x : Port) : (c.setPort p x).queues = c.queues := rfl
@[simp] theorem Chip.setPort_mbxB (p : Nat) (x : Port) : (c.setPort p x).mbxB = c.mbxB := rfl
@[simp] theorem Chip.setPort_domains (p : Nat) (x : Port) : (c.setPort p x).domains = c.domains := rfl
@[simp] theorem Chip.setPort_fabric (p : Nat) (x : Port) : (c.setPort p x).fabric = c.fabric := rfl
@[simp] theorem Chip.setPort_faults (p : Nat) (x : Port) : (c.setPort p x).faults = c.faults := rfl
@[simp] theorem Chip.setPort_flash (p : Nat) (x : Port) : (c.setPort p x).flash = c.flash := rfl
@[simp] theorem Chip.setPort_fuses (p : Nat) (x : Port) : (c.setPort p x).fuses = c.fuses := rfl
@[simp] theorem Chip.setPort_sec (p : Nat) (x : Port) : (c.setPort p x).sec = c.sec := rfl
@[simp] theorem Chip.setPort_pins (p : Nat) (x : Port) : (c.setPort p x).pins = c.pins := rfl
@[simp] theorem Chip.setPort_svc (p : Nat) (x : Port) : (c.setPort p x).svc = c.svc := rfl

/-! ### Chip.fresh -/

@[simp] theorem Chip.fresh_now  : (c.fresh).now = c.now := rfl
@[simp] theorem Chip.fresh_resetAt  : (c.fresh).resetAt = c.resetAt := rfl
@[simp] theorem Chip.fresh_islands  : (c.fresh).islands = c.islands := rfl
@[simp] theorem Chip.fresh_rawAt  : (c.fresh).rawAt = c.rawAt := rfl
@[simp] theorem Chip.fresh_powered  : (c.fresh).powered = c.powered := rfl
@[simp] theorem Chip.fresh_regs  : (c.fresh).regs = c.regs := rfl
@[simp] theorem Chip.fresh_cores  : (c.fresh).cores = c.cores := rfl
@[simp] theorem Chip.fresh_clusters  : (c.fresh).clusters = c.clusters := rfl
@[simp] theorem Chip.fresh_tiles  : (c.fresh).tiles = c.tiles := rfl
@[simp] theorem Chip.fresh_badger  : (c.fresh).badger = c.badger := rfl
@[simp] theorem Chip.fresh_mgmt  : (c.fresh).mgmt = c.mgmt := rfl
@[simp] theorem Chip.fresh_mbxA  : (c.fresh).mbxA = c.mbxA := rfl
@[simp] theorem Chip.fresh_queues  : (c.fresh).queues = c.queues := rfl
@[simp] theorem Chip.fresh_mbxB  : (c.fresh).mbxB = c.mbxB := rfl
@[simp] theorem Chip.fresh_domains  : (c.fresh).domains = c.domains := rfl
@[simp] theorem Chip.fresh_fabric  : (c.fresh).fabric = c.fabric := rfl
@[simp] theorem Chip.fresh_faults  : (c.fresh).faults = c.faults := rfl
@[simp] theorem Chip.fresh_ports  : (c.fresh).ports = c.ports := rfl
@[simp] theorem Chip.fresh_flash  : (c.fresh).flash = c.flash := rfl
@[simp] theorem Chip.fresh_fuses  : (c.fresh).fuses = c.fuses := rfl
@[simp] theorem Chip.fresh_sec  : (c.fresh).sec = c.sec := rfl
@[simp] theorem Chip.fresh_pins  : (c.fresh).pins = c.pins := rfl
@[simp] theorem Chip.fresh_svc  : (c.fresh).svc = c.svc := rfl

/-! ### Chip.raise -/

@[simp] theorem Chip.raise_now (k par : Nat) : (c.raise k par).now = c.now := rfl
@[simp] theorem Chip.raise_resetAt (k par : Nat) : (c.raise k par).resetAt = c.resetAt := rfl
@[simp] theorem Chip.raise_islands (k par : Nat) : (c.raise k par).islands = c.islands := rfl
@[simp] theorem Chip.raise_rawAt (k par : Nat) : (c.raise k par).rawAt = c.rawAt := rfl
@[simp] theorem Chip.raise_powered (k par : Nat) : (c.raise k par).powered = c.powered := rfl
@[simp] theorem Chip.raise_freeCtr (k par : Nat) : (c.raise k par).freeCtr = c.freeCtr := rfl
@[simp] theorem Chip.raise_regs (k par : Nat) : (c.raise k par).regs = c.regs := rfl
@[simp] theorem Chip.raise_cores (k par : Nat) : (c.raise k par).cores = c.cores := rfl
@[simp] theorem Chip.raise_clusters (k par : Nat) : (c.raise k par).clusters = c.clusters := rfl
@[simp] theorem Chip.raise_tiles (k par : Nat) : (c.raise k par).tiles = c.tiles := rfl
@[simp] theorem Chip.raise_badger (k par : Nat) : (c.raise k par).badger = c.badger := rfl
@[simp] theorem Chip.raise_mgmt (k par : Nat) : (c.raise k par).mgmt = c.mgmt := rfl
@[simp] theorem Chip.raise_mbxA (k par : Nat) : (c.raise k par).mbxA = c.mbxA := rfl
@[simp] theorem Chip.raise_queues (k par : Nat) : (c.raise k par).queues = c.queues := rfl
@[simp] theorem Chip.raise_mbxB (k par : Nat) : (c.raise k par).mbxB = c.mbxB := rfl
@[simp] theorem Chip.raise_domains (k par : Nat) : (c.raise k par).domains = c.domains := rfl
@[simp] theorem Chip.raise_fabric (k par : Nat) : (c.raise k par).fabric = c.fabric := rfl
@[simp] theorem Chip.raise_ports (k par : Nat) : (c.raise k par).ports = c.ports := rfl
@[simp] theorem Chip.raise_flash (k par : Nat) : (c.raise k par).flash = c.flash := rfl
@[simp] theorem Chip.raise_fuses (k par : Nat) : (c.raise k par).fuses = c.fuses := rfl
@[simp] theorem Chip.raise_sec (k par : Nat) : (c.raise k par).sec = c.sec := rfl
@[simp] theorem Chip.raise_pins (k par : Nat) : (c.raise k par).pins = c.pins := rfl
@[simp] theorem Chip.raise_svc (k par : Nat) : (c.raise k par).svc = c.svc := rfl

/-! ### Chip.setMbx -/

@[simp] theorem Chip.setMbx_now (ch : Nat) (x : Mbx) : (c.setMbx ch x).now = c.now := by unfold Chip.setMbx; split <;> rfl
@[simp] theorem Chip.setMbx_resetAt (ch : Nat) (x : Mbx) : (c.setMbx ch x).resetAt = c.resetAt := by unfold Chip.setMbx; split <;> rfl
@[simp] theorem Chip.setMbx_islands (ch : Nat) (x : Mbx) : (c.setMbx ch x).islands = c.islands := by unfold Chip.setMbx; split <;> rfl
@[simp] theorem Chip.setMbx_rawAt (ch : Nat) (x : Mbx) : (c.setMbx ch x).rawAt = c.rawAt := by unfold Chip.setMbx; split <;> rfl
@[simp] theorem Chip.setMbx_powered (ch : Nat) (x : Mbx) : (c.setMbx ch x).powered = c.powered := by unfold Chip.setMbx; split <;> rfl
@[simp] theorem Chip.setMbx_freeCtr (ch : Nat) (x : Mbx) : (c.setMbx ch x).freeCtr = c.freeCtr := by unfold Chip.setMbx; split <;> rfl
@[simp] theorem Chip.setMbx_regs (ch : Nat) (x : Mbx) : (c.setMbx ch x).regs = c.regs := by unfold Chip.setMbx; split <;> rfl
@[simp] theorem Chip.setMbx_cores (ch : Nat) (x : Mbx) : (c.setMbx ch x).cores = c.cores := by unfold Chip.setMbx; split <;> rfl
@[simp] theorem Chip.setMbx_clusters (ch : Nat) (x : Mbx) : (c.setMbx ch x).clusters = c.clusters := by unfold Chip.setMbx; split <;> rfl
@[simp] theorem Chip.setMbx_tiles (ch : Nat) (x : Mbx) : (c.setMbx ch x).tiles = c.tiles := by unfold Chip.setMbx; split <;> rfl
@[simp] theorem Chip.setMbx_badger (ch : Nat) (x : Mbx) : (c.setMbx ch x).badger = c.badger := by unfold Chip.setMbx; split <;> rfl
@[simp] theorem Chip.setMbx_mgmt (ch : Nat) (x : Mbx) : (c.setMbx ch x).mgmt = c.mgmt := by unfold Chip.setMbx; split <;> rfl
@[simp] theorem Chip.setMbx_queues (ch : Nat) (x : Mbx) : (c.setMbx ch x).queues = c.queues := by unfold Chip.setMbx; split <;> rfl
@[simp] theorem Chip.setMbx_domains (ch : Nat) (x : Mbx) : (c.setMbx ch x).domains = c.domains := by unfold Chip.setMbx; split <;> rfl
@[simp] theorem Chip.setMbx_fabric (ch : Nat) (x : Mbx) : (c.setMbx ch x).fabric = c.fabric := by unfold Chip.setMbx; split <;> rfl
@[simp] theorem Chip.setMbx_faults (ch : Nat) (x : Mbx) : (c.setMbx ch x).faults = c.faults := by unfold Chip.setMbx; split <;> rfl
@[simp] theorem Chip.setMbx_ports (ch : Nat) (x : Mbx) : (c.setMbx ch x).ports = c.ports := by unfold Chip.setMbx; split <;> rfl
@[simp] theorem Chip.setMbx_flash (ch : Nat) (x : Mbx) : (c.setMbx ch x).flash = c.flash := by unfold Chip.setMbx; split <;> rfl
@[simp] theorem Chip.setMbx_fuses (ch : Nat) (x : Mbx) : (c.setMbx ch x).fuses = c.fuses := by unfold Chip.setMbx; split <;> rfl
@[simp] theorem Chip.setMbx_sec (ch : Nat) (x : Mbx) : (c.setMbx ch x).sec = c.sec := by unfold Chip.setMbx; split <;> rfl
@[simp] theorem Chip.setMbx_pins (ch : Nat) (x : Mbx) : (c.setMbx ch x).pins = c.pins := by unfold Chip.setMbx; split <;> rfl
@[simp] theorem Chip.setMbx_svc (ch : Nat) (x : Mbx) : (c.setMbx ch x).svc = c.svc := by unfold Chip.setMbx; split <;> rfl

/-! ### Reading back -/

@[simp] theorem Chip.reg_setReg_self (a : Nat) (w : Word) : (c.setReg a w).reg a = w := by
  simp [Chip.reg, Chip.setReg]

theorem Chip.reg_setReg_ne {a b : Nat} (w : Word) (h : b ≠ a) : (c.setReg a w).reg b = c.reg b := by
  simp [Chip.reg, Chip.setReg, mget?_mset_ne _ _ h]

@[simp] theorem Chip.core_setCore_self (k : Nat) (x : Core) : (c.setCore k x).core k = x := by
  simp [Chip.core, Chip.setCore]

theorem Chip.core_setCore_ne {k j : Nat} (x : Core) (h : j ≠ k) : (c.setCore k x).core j = c.core j := by
  simp [Chip.core, Chip.setCore, mget_mset_ne _ _ _ h]

@[simp] theorem Chip.clu_setClu_self (n : Nat) (x : Cluster) : (c.setClu n x).clu n = x := by
  simp [Chip.clu, Chip.setClu]

theorem Chip.clu_setClu_ne {n j : Nat} (x : Cluster) (h : j ≠ n) : (c.setClu n x).clu j = c.clu j := by
  simp [Chip.clu, Chip.setClu, mget_mset_ne _ _ _ h]

@[simp] theorem Chip.slot_setSlot_self (n k : Nat) (x : Slot) : (c.setSlot n k x).slot n k = x := by
  simp [Chip.slot, Chip.setSlot]

@[simp] theorem Chip.tile_setTile_self (n : Nat) (x : Tile) : (c.setTile n x).tile n = x := by
  simp [Chip.tile, Chip.setTile]

theorem Chip.tile_setTile_ne {n j : Nat} (x : Tile) (h : j ≠ n) : (c.setTile n x).tile j = c.tile j := by
  simp [Chip.tile, Chip.setTile, mget_mset_ne _ _ _ h]

@[simp] theorem Chip.dom_setDom_self (d : Nat) (x : Domain) : (c.setDom d x).dom d = x := by
  simp [Chip.dom, Chip.setDom]

theorem Chip.dom_setDom_ne {d j : Nat} (x : Domain) (h : j ≠ d) : (c.setDom d x).dom j = c.dom j := by
  simp [Chip.dom, Chip.setDom, mget_mset_ne _ _ _ h]

@[simp] theorem Chip.port_setPort_self (p : Nat) (x : Port) : (c.setPort p x).port p = x := by
  simp [Chip.port, Chip.setPort]

theorem Chip.port_setPort_ne {p j : Nat} (x : Port) (h : j ≠ p) : (c.setPort p x).port j = c.port j := by
  simp [Chip.port, Chip.setPort, mget_mset_ne _ _ _ h]

@[simp] theorem Chip.mbx_setMbx_self (ch : Nat) (x : Mbx) : (c.setMbx ch x).mbx ch = x := by
  unfold Chip.setMbx Chip.mbx
  split <;> rfl

/-! ### Views through another field's update -/

@[simp] theorem Chip.setCore_reg (k a : Nat) (x : Core) : (c.setCore k x).reg a = c.reg a := rfl
@[simp] theorem Chip.setCore_clu (k n : Nat) (x : Core) : (c.setCore k x).clu n = c.clu n := rfl
@[simp] theorem Chip.setClu_reg (n a : Nat) (x : Cluster) : (c.setClu n x).reg a = c.reg a := rfl
@[simp] theorem Chip.setClu_core (n k : Nat) (x : Cluster) : (c.setClu n x).core k = c.core k := rfl
@[simp] theorem Chip.setReg_core (a k : Nat) (w : Word) : (c.setReg a w).core k = c.core k := rfl
@[simp] theorem Chip.setReg_clu (a n : Nat) (w : Word) : (c.setReg a w).clu n = c.clu n := rfl
@[simp] theorem Chip.fresh_reg (a : Nat) : c.fresh.reg a = c.reg a := rfl
@[simp] theorem Chip.fresh_core (k : Nat) : c.fresh.core k = c.core k := rfl
@[simp] theorem Chip.fresh_clu (n : Nat) : c.fresh.clu n = c.clu n := rfl
@[simp] theorem Chip.raise_reg (k par a : Nat) : (c.raise k par).reg a = c.reg a := rfl
@[simp] theorem Chip.raise_core (k par n : Nat) : (c.raise k par).core n = c.core n := rfl
@[simp] theorem Chip.raise_clu (k par n : Nat) : (c.raise k par).clu n = c.clu n := rfl

/-! ### The two answers of a command -/

@[simp] theorem State.goChip_eq (s : State) (x : Chip) : s.goChip x = .next { s with chip := x } := rfl
@[simp] theorem State.goBoth_eq (s : State) (x : Chip) (m : Memory) : s.goBoth x m = .next { s with chip := x, mem := m } := rfl

end Sys2Proof.Machine
end

