-- ==== Sys2Proof/Laws/Bits.lean ====
section
/-! SUPPORT. Laws/Bits.lean: fields of register words: a field reads what was put into it, and the other fields are as before. -/

namespace Sys2Proof.Machine

theorem bit_eq_testBit (w k : Nat) : bit w k = w.testBit k := by
  unfold bit
  rw [Nat.testBit_eq_decide_div_mod_eq]
  exact Bool.beq_eq_decide_eq _ _

theorem testBit_bits (w hi lo i : Nat) : (bits w hi lo).testBit i = (decide (i < hi + 1 - lo) && w.testBit (i + lo)) := by
  unfold bits
  rw [Nat.testBit_mod_two_pow, Nat.testBit_div_two_pow]

theorem bits_lt (w hi lo : Nat) : bits w hi lo < 2 ^ (hi + 1 - lo) := Nat.mod_lt _ (Nat.two_pow_pos _)

theorem testBit_putBits (w hi lo v i : Nat) (h : lo ≤ hi) :
    (putBits w hi lo v).testBit i = if lo ≤ i ∧ i ≤ hi then v.testBit (i - lo) else w.testBit i := by
  unfold putBits
  have hlow : w % 2 ^ lo < 2 ^ lo := Nat.mod_lt _ (Nat.two_pow_pos _)
  have hv : v % 2 ^ (hi + 1 - lo) < 2 ^ (hi + 1 - lo) := Nat.mod_lt _ (Nat.two_pow_pos _)
  have hmid : v % 2 ^ (hi + 1 - lo) * 2 ^ lo + w % 2 ^ lo < 2 ^ (hi + 1) := by
    have : 2 ^ (hi + 1) = 2 ^ (hi + 1 - lo) * 2 ^ lo := by rw [← Nat.pow_add]; congr 1; omega
    rw [this]
    calc v % 2 ^ (hi + 1 - lo) * 2 ^ lo + w % 2 ^ lo < v % 2 ^ (hi + 1 - lo) * 2 ^ lo + 2 ^ lo := by omega
      _ = (v % 2 ^ (hi + 1 - lo) + 1) * 2 ^ lo := by rw [Nat.add_mul, Nat.one_mul]
      _ ≤ 2 ^ (hi + 1 - lo) * 2 ^ lo := Nat.mul_le_mul_right _ hv
  rw [Nat.add_assoc, Nat.mul_comm, Nat.testBit_two_pow_mul_add _ hmid, Nat.mul_comm (v % _), Nat.testBit_two_pow_mul_add _ hlow]
  rw [Nat.testBit_mod_two_pow, Nat.testBit_mod_two_pow, Nat.testBit_div_two_pow]
  by_cases h1 : i < lo
  · have : i < hi + 1 := by omega
    simp [h1, this, Nat.not_le.mpr h1]
  · by_cases h2 : i < hi + 1
    · have h3 : i - lo < hi + 1 - lo := by omega
      have h4 : lo ≤ i ∧ i ≤ hi := by omega
      simp [h1, h2, h3, h4]
    · have h4 : ¬ (lo ≤ i ∧ i ≤ hi) := by omega
      have h5 : i - (hi + 1) + (hi + 1) = i := by omega
      simp [h2, h4, h5]

/-- The bits of a word after a field has been put. -/
theorem testBit_fput (w : Word) (f : Fld) (v i : Nat) (h : f.lo ≤ f.hi) (hi : i < 64) :
    (fput w f v).toNat.testBit i = if f.lo ≤ i ∧ i ≤ f.hi then v.testBit (i - f.lo) else w.toNat.testBit i := by
  unfold fput
  rw [BitVec.toNat_ofNat, Nat.testBit_mod_two_pow, testBit_putBits _ _ _ _ _ h]
  simp [hi]

/-- A field reads back the value put into it, cut to its width. -/
theorem fget_fput_self (w : Word) (f : Fld) (v : Nat) (h : f.lo ≤ f.hi) (h64 : f.hi < 64) :
    fget (fput w f v) f = v % 2 ^ (f.hi + 1 - f.lo) := by
  apply Nat.eq_of_testBit_eq
  intro i
  unfold fget
  rw [testBit_bits, Nat.testBit_mod_two_pow]
  by_cases hi : i < f.hi + 1 - f.lo
  · rw [testBit_fput _ _ _ _ h (by omega)]
    have : f.lo ≤ i + f.lo ∧ i + f.lo ≤ f.hi := by omega
    simp [hi, this]
  · simp [hi]

/-- A field is as before when another field is put. -/
theorem fget_fput_ne (w : Word) {f g : Fld} (v : Nat) (h : f.lo ≤ f.hi) (h64 : g.hi < 64) (hd : g.hi < f.lo ∨ f.hi < g.lo) :
    fget (fput w f v) g = fget w g := by
  apply Nat.eq_of_testBit_eq
  intro i
  unfold fget
  rw [testBit_bits, testBit_bits]
  by_cases hi : i < g.hi + 1 - g.lo
  · rw [testBit_fput _ _ _ _ h (by omega)]
    have : ¬ (f.lo ≤ i + g.lo ∧ i + g.lo ≤ f.hi) := by omega
    simp [this]
  · simp [hi]

variable (c : Chip)

theorem Chip.fld_setFld_self (a : Nat) (f : Fld) (v : Nat) (h : f.lo ≤ f.hi) (h64 : f.hi < 64) :
    (c.setFld a f v).fld a f = v % 2 ^ (f.hi + 1 - f.lo) := by
  unfold Chip.fld Chip.setFld
  rw [Chip.reg_setReg_self, fget_fput_self _ _ _ h h64]

theorem Chip.fld_setFld_field (a : Nat) {f g : Fld} (v : Nat) (h : f.lo ≤ f.hi) (h64 : g.hi < 64)
    (hd : g.hi < f.lo ∨ f.hi < g.lo) : (c.setFld a f v).fld a g = c.fld a g := by
  unfold Chip.fld Chip.setFld
  rw [Chip.reg_setReg_self, fget_fput_ne _ _ h h64 hd]

theorem Chip.reg_setFld_ne {a b : Nat} (f : Fld) (v : Nat) (h : b ≠ a) : (c.setFld a f v).reg b = c.reg b := by
  unfold Chip.setFld
  exact Chip.reg_setReg_ne _ _ h

theorem Chip.fld_setFld_ne {a b : Nat} (f g : Fld) (v : Nat) (h : b ≠ a) : (c.setFld a f v).fld b g = c.fld b g := by
  unfold Chip.fld
  rw [Chip.reg_setFld_ne _ _ _ h]

theorem Chip.fld_setReg_ne {a b : Nat} (w : Word) (g : Fld) (h : b ≠ a) : (c.setReg a w).fld b g = c.fld b g := by
  unfold Chip.fld
  rw [Chip.reg_setReg_ne _ _ h]

theorem fget_lt (w : Word) (f : Fld) : fget w f < 2 ^ (f.hi + 1 - f.lo) := bits_lt _ _ _

end Sys2Proof.Machine
end

