-- ==== Sys2Proof/Laws/Core.lean ====
section
/-! SUPPORT. Laws/Core.lean: what the register writes of a core and the retirement of a word change, and what they leave. -/

namespace Sys2Proof.Machine

variable (x : Core)

/-! ### Records change the signature alone -/

@[simp] theorem Core.note_key (a b : Nat) : (x.note a b).key = x.key := by cases x; rfl
@[simp] theorem Core.note_banks (a b : Nat) : (x.note a b).banks = x.banks := by cases x; rfl
@[simp] theorem Core.note_bankOf (a b k : Nat) : (x.note a b).bankOf k = x.bankOf k := by cases x; rfl
@[simp] theorem Core.noteReg_bankOf (a b c k : Nat) : (x.noteReg a b c).bankOf k = x.bankOf k := by cases x; rfl
@[simp] theorem Core.noteReg_key (a b c : Nat) : (x.noteReg a b c).key = x.key := by cases x; rfl
@[simp] theorem Core.noteSp_bankOf (a b k : Nat) : (x.noteSp a b).bankOf k = x.bankOf k := by cases x; rfl
@[simp] theorem Core.noteSp_key (a b : Nat) : (x.noteSp a b).key = x.key := by cases x; rfl
@[simp] theorem Core.setBank_key (k : Nat) (b : Bank) : (x.setBank k b).key = x.key := by cases x; rfl

@[simp] theorem Core.bankOf_setBank_self (k : Nat) (b : Bank) : (x.setBank k b).bankOf k = b := by
  simp [Core.bankOf, Core.setBank]

theorem Core.bankOf_setBank_ne {k j : Nat} (b : Bank) (h : j ≠ k) : (x.setBank k b).bankOf j = x.bankOf j := by
  simp [Core.bankOf, Core.setBank, mget_mset_ne _ _ _ h]

/-! ### General registers, FLAGS, bank registers, V registers -/

@[simp] theorem Core.setG_key (r : Reg) (v : Word) : (x.setG r v).key = x.key := by cases x; rfl
@[simp] theorem Core.setFlags_key (f : Flags) : (x.setFlags f).key = x.key := by cases x; rfl
@[simp] theorem Core.setB_key (n : Fin 8) (v : BitVec 32) : (x.setB n v).key = x.key := by cases x; rfl

theorem Core.setG_bank (r : Reg) (v : Word) : (x.setG r v).bank = { x.bank with g := x.bank.g.set r v } := by
  simp [Core.bank, Core.setG, Core.setGOf]

theorem Core.setFlags_bank (f : Flags) : (x.setFlags f).bank = { x.bank with flags := f } := by
  simp [Core.bank, Core.setFlags]

theorem Core.setB_bank (n : Fin 8) (v : BitVec 32) : (x.setB n v).bank = { x.bank with b := x.bank.b.set n v } := by
  simp [Core.bank, Core.setB]

@[simp] theorem Core.g_setG_self (r : Reg) (v : Word) : (x.setG r v).g r = v := by
  simp [Core.g, Core.setG_bank, Vector.get, Vector.set]

theorem Core.g_setG_ne {r q : Reg} (v : Word) (h : q ≠ r) : (x.setG r v).g q = x.g q := by
  have h' : r.val ≠ q.val := fun e => h (Fin.ext e.symm)
  simp [Core.g, Core.setG_bank, Vector.get, Vector.set, h']

@[simp] theorem Core.g_setFlags (r : Reg) (f : Flags) : (x.setFlags f).g r = x.g r := by
  simp [Core.g, Core.setFlags_bank]

/-! ### Retirement -/

/-- A retirement moves the PC and the counts; the registers, the stores and the privilege stay. -/
theorem Core.retire_spec (n : Nat) :
    (x.retire n).banks = x.banks ∧ (x.retire n).cur = x.cur ∧ (x.retire n).exc = x.exc ∧ (x.retire n).sup = x.sup
      ∧ (x.retire n).v = x.v ∧ (x.retire n).erec = x.erec ∧ (x.retire n).pc = n % 2 ^ 48
      ∧ (x.retire n).retired = x.retired + 1 ∧ (x.retire n).lastPc = x.pc ∧ (x.retire n).run = .executing
      ∧ (x.retire n).released = x.released := by
  unfold Core.retire
  simp only []
  split <;> simp [Core.closeWin, Core.note]

@[simp] theorem Core.retire_banks (n : Nat) : (x.retire n).banks = x.banks := (x.retire_spec n).1
@[simp] theorem Core.retire_cur (n : Nat) : (x.retire n).cur = x.cur := (x.retire_spec n).2.1
@[simp] theorem Core.retire_exc (n : Nat) : (x.retire n).exc = x.exc := (x.retire_spec n).2.2.1
@[simp] theorem Core.retire_sup (n : Nat) : (x.retire n).sup = x.sup := (x.retire_spec n).2.2.2.1
@[simp] theorem Core.retire_v (n : Nat) : (x.retire n).v = x.v := (x.retire_spec n).2.2.2.2.1
@[simp] theorem Core.retire_erec (n : Nat) : (x.retire n).erec = x.erec := (x.retire_spec n).2.2.2.2.2.1
@[simp] theorem Core.retire_pc (n : Nat) : (x.retire n).pc = n % 2 ^ 48 := (x.retire_spec n).2.2.2.2.2.2.1
@[simp] theorem Core.retire_retired (n : Nat) : (x.retire n).retired = x.retired + 1 := (x.retire_spec n).2.2.2.2.2.2.2.1
@[simp] theorem Core.retire_run (n : Nat) : (x.retire n).run = .executing := (x.retire_spec n).2.2.2.2.2.2.2.2.2.1
@[simp] theorem Core.retire_key (n : Nat) : (x.retire n).key = x.key := by simp [Core.key]
@[simp] theorem Core.retire_bank (n : Nat) : (x.retire n).bank = x.bank := by simp [Core.bank, Core.bankOf]
@[simp] theorem Core.retire_g (n : Nat) (r : Reg) : (x.retire n).g r = x.g r := by simp [Core.g]

/-! ### A fetch moves the caches alone -/

@[simp] theorem Core.fetch_bank (e : Env) (m : Memory) : (Core.fetch e x m).bank = x.bank := rfl
@[simp] theorem Core.fetch_g (e : Env) (m : Memory) (r : Reg) : (Core.fetch e x m).g r = x.g r := rfl
@[simp] theorem Core.fetch_pc (e : Env) (m : Memory) : (Core.fetch e x m).pc = x.pc := rfl
@[simp] theorem Core.fetch_sup (e : Env) (m : Memory) : (Core.fetch e x m).sup = x.sup := rfl
@[simp] theorem Core.fetch_key (e : Env) (m : Memory) : (Core.fetch e x m).key = x.key := rfl
@[simp] theorem Core.fetch_erec (e : Env) (m : Memory) : (Core.fetch e x m).erec = x.erec := rfl
@[simp] theorem Core.fetch_retired (e : Env) (m : Memory) : (Core.fetch e x m).retired = x.retired := rfl
@[simp] theorem Core.fetch_win (e : Env) (m : Memory) : (Core.fetch e x m).win = x.win := rfl
@[simp] theorem Core.fetch_closed (e : Env) (m : Memory) : (Core.fetch e x m).closed = x.closed := rfl

end Sys2Proof.Machine
end

