-- ==== Sys2Proof/Laws/Mem.lean ====
section
/-! SUPPORT. Laws/Mem.lean: the stored words: a byte read after a byte stored, and every operation of Mem.lean keeps the
canonical form. -/

namespace Sys2Proof.Machine

@[simp] theorem memGet?_memPut_self (m : Memory) (k : Nat) (b : Byte) : memGet? (memPut m k b) k = some b :=
  mget?_mset_self m k b

theorem memGet?_memPut_ne (m : Memory) {k j : Nat} (b : Byte) (h : j ≠ k) : memGet? (memPut m k b) j = memGet? m j :=
  mget?_mset_ne m b h

theorem memGet?_memDel_ne (m : Memory) {k j : Nat} (h : j ≠ k) : memGet? (memDel m k) j = memGet? m j :=
  mget?_mdel_ne m h

theorem memWfFrom_weaken {lo lo' : Nat} {m : Memory} (h : memWfFrom lo m = true) (hl : lo' ≤ lo) :
    memWfFrom lo' m = true := by
  cases m with
  | nil => rfl
  | cons p r =>
    obtain ⟨k, b⟩ := p
    simp only [memWfFrom, Bool.and_eq_true, decide_eq_true_eq] at h ⊢
    exact ⟨by omega, h.2⟩

theorem memWfFrom_mset {lo k : Nat} {m : Memory} (b : Byte) (h : memWfFrom lo m = true) (hk : lo ≤ k) :
    memWfFrom lo (mset m k b) = true := by
  induction m generalizing lo with
  | nil => simp [mset, memWfFrom, hk]
  | cons p r ih =>
    obtain ⟨j, v⟩ := p
    simp only [memWfFrom, Bool.and_eq_true, decide_eq_true_eq] at h
    unfold mset
    split
    · simp only [memWfFrom, Bool.and_eq_true, decide_eq_true_eq]
      exact ⟨hk, by omega, h.2⟩
    · split
      · rename_i h1 h2
        subst h2
        simp only [memWfFrom, Bool.and_eq_true, decide_eq_true_eq]
        exact ⟨hk, h.2⟩
      · simp only [memWfFrom, Bool.and_eq_true, decide_eq_true_eq]
        exact ⟨h.1, ih h.2 (by omega)⟩

theorem memWfFrom_mdel {lo k : Nat} {m : Memory} (h : memWfFrom lo m = true) : memWfFrom lo (mdel m k) = true := by
  induction m generalizing lo with
  | nil => rfl
  | cons p r ih =>
    obtain ⟨j, v⟩ := p
    simp only [memWfFrom, Bool.and_eq_true, decide_eq_true_eq] at h
    unfold mdel
    split
    · exact memWfFrom_weaken h.2 (by omega)
    · simp only [memWfFrom, Bool.and_eq_true, decide_eq_true_eq]
      exact ⟨h.1, ih h.2⟩

theorem memWfFrom_filter {lo : Nat} {m : Memory} (p : Host.Cell → Bool) (h : memWfFrom lo m = true) :
    memWfFrom lo (m.filter p) = true := by
  induction m generalizing lo with
  | nil => rfl
  | cons q r ih =>
    obtain ⟨j, v⟩ := q
    simp only [memWfFrom, Bool.and_eq_true, decide_eq_true_eq] at h
    simp only [List.filter_cons]
    split
    · simp only [memWfFrom, Bool.and_eq_true, decide_eq_true_eq]
      exact ⟨h.1, ih h.2⟩
    · exact memWfFrom_weaken (ih h.2) (by omega)

theorem memPut_wf {m : Memory} (k : Nat) (b : Byte) (h : Memory.wf m = true) : Memory.wf (memPut m k b) = true :=
  memWfFrom_mset b h (Nat.zero_le k)

theorem memDel_wf {m : Memory} (k : Nat) (h : Memory.wf m = true) : Memory.wf (memDel m k) = true := memWfFrom_mdel h

theorem memForget_wf {m : Memory} (p : Nat → Bool) (h : Memory.wf m = true) : Memory.wf (memForget m p) = true :=
  memWfFrom_filter _ h

theorem filter_wf {m : Memory} (p : Host.Cell → Bool) (h : Memory.wf m = true) : Memory.wf (m.filter p) = true :=
  memWfFrom_filter p h

theorem memPutBytes_wf {m : Memory} (k : Nat) (l : List Byte) (h : Memory.wf m = true) :
    Memory.wf (memPutBytes m k l) = true := by
  induction l generalizing m k with
  | nil => exact h
  | cons b r ih => exact ih (k + 1) (memPut_wf k b h)

theorem memPutWord_wf {m : Memory} (k d c : Nat) (h : Memory.wf m = true) : Memory.wf (memPutWord m k d c) = true :=
  memPut_wf _ _ (memPutBytes_wf _ _ h)

theorem memFill_wf {m : Memory} (f : Nat → Nat) (k a n : Nat) (h : Memory.wf m = true) :
    Memory.wf (memFill f k a n m) = true := by
  induction n with
  | zero => exact h
  | succ n ih => exact memPutWord_wf _ _ _ ih

/-- A fold of operations that each keep the canonical form keeps it. -/
theorem foldl_wf {α : Type} (f : Memory → α → Memory) (l : List α)
    (hf : ∀ m a, Memory.wf m = true → Memory.wf (f m a) = true) {m : Memory} (h : Memory.wf m = true) :
    Memory.wf (l.foldl f m) = true := by
  induction l generalizing m with
  | nil => exact h
  | cons a r ih => exact ih (hf m a h)

/-- Reset lists nothing. -/
theorem nil_wf : Memory.wf [] = true := rfl

/-- The bytes below and above a stored run are as before. -/
theorem memGet?_memPutBytes_out (m : Memory) (k j : Nat) (l : List Byte) (h : j < k ∨ k + l.length ≤ j) :
    memGet? (memPutBytes m k l) j = memGet? m j := by
  induction l generalizing m k with
  | nil => rfl
  | cons b r ih =>
    simp only [List.length_cons] at h
    rw [memPutBytes, ih (memPut m k b) (k + 1) (by omega), memGet?_memPut_ne m b (by omega)]

/-- The bytes of a stored run read back. -/
theorem memGet?_memPutBytes_in (m : Memory) (k i : Nat) (l : List Byte) (h : i < l.length) :
    memGet? (memPutBytes m k l) (k + i) = some l[i] := by
  induction l generalizing m k i with
  | nil => simp at h
  | cons b r ih =>
    cases i with
    | zero => rw [memPutBytes, memGet?_memPutBytes_out _ _ _ _ (by omega)]; simp
    | succ i =>
      have := ih (memPut m k b) (k + 1) i (by simpa using h)
      rw [memPutBytes]
      simpa [Nat.add_assoc, Nat.add_comm 1 i] using this

/-- Storing a word leaves every byte outside it and outside its check byte. -/
theorem memGet?_memPutWord_out (m : Memory) (k d c j : Nat) (h : j < k ∨ k + 8 ≤ j) (hc : j ≠ chkKey k) :
    memGet? (memPutWord m k d c) j = memGet? m j := by
  rw [memPutWord, memGet?_memPut_ne _ _ hc, memGet?_memPutBytes_out]
  simpa [bytesLE] using h

end Sys2Proof.Machine
end

