-- ==== Sys2Proof/Laws/MemOps.lean ====
section
/-! SUPPORT. Laws/MemOps.lean: every operation of the machine on stored words keeps the canonical form: a checked write, the stores
of cores and frames, fills, copies, wipes, resets, transfers and pieces. -/

namespace Sys2Proof.Machine

variable {c : Chip} {m : Memory}

/-! ### Checked writes -/

theorem writeStored_wf (k f : Nat) (l : Loc) (d : Nat) (b : Bool) (h : Memory.wf m = true) :
    Memory.wf (writeStored c m k f l d b) = true := by
  unfold writeStored
  split
  · exact h
  · cases l with
    | dram d off =>
      simp only []
      cases c.copyOf d (chanOf off) with
      | none => exact memPutWord_wf _ _ _ h
      | some n => exact memPutWord_wf _ _ _ (memPutWord_wf _ _ _ h)
    | _ => exact memPutWord_wf _ _ _ h

theorem writeWord_wf (k f : Nat) (l : Loc) (d mask : Nat) (h : Memory.wf m = true) :
    Memory.wf (writeWord c m k f l d mask).1 = true := by
  unfold writeWord
  split
  · exact writeStored_wf _ _ _ _ _ h
  · simp only []
    have hw := writeStored_wf (c := c) k f l (mergeMask (readStored c m k f l).data d mask) false h
    generalize writeStored c m k f l (mergeMask (readStored c m k f l).data d mask) false = m' at hw ⊢
    split
    · exact h
    · exact hw

theorem memDel_fold_wf (k n : Nat) (h : Memory.wf m = true) :
    Memory.wf ((List.range n).foldl (fun m i => memDel m (k + i)) m) = true :=
  foldl_wf _ _ (fun _ _ h => memDel_wf _ h) h

theorem forgetWord_wf (k : Nat) (h : Memory.wf m = true) : Memory.wf (forgetWord m k) = true := by
  unfold forgetWord
  exact memDel_wf _ (memDel_fold_wf k 8 h)

/-! ### Stores of cores and frames -/

theorem denStoreHalf_wf (e : Env) (o n d : Nat) (h : Memory.wf m = true) : Memory.wf (denStoreHalf e m o n d) = true :=
  writeWord_wf _ _ _ _ _ h

theorem denStore_wf (e : Env) (o n d : Nat) (h : Memory.wf m = true) : Memory.wf (denStore e m o n d) = true := by
  have one : ∀ (e : Env) (m : Memory), Memory.wf m = true → Memory.wf (match halves o n with
      | [(o0, n0), (o1, n1)] => denStoreHalf e (denStoreHalf e m o0 n0 (d % 2 ^ (8 * n0))) o1 n1 (d / 2 ^ (8 * n0))
      | _ => denStoreHalf e m o n d) = true := by
    intro e m h
    split
    · exact denStoreHalf_wf _ _ _ _ (denStoreHalf_wf _ _ _ _ h)
    · exact denStoreHalf_wf _ _ _ _ h
  unfold denStore
  simp only []
  split
  · split
    · split
      · exact one _ _ (one _ _ h)
      · exact one _ _ h
    · exact one _ _ h
  · exact one _ _ h

theorem frameStore_wf (e : Env) (x : Core) (a d : Nat) (h : Memory.wf m = true) :
    Memory.wf (frameStore e x m a d).1 = true := by
  unfold frameStore
  split
  · exact denStore_wf _ _ _ _ h
  · split
    · simp only []
      split
      · exact writeWord_wf _ _ _ _ _ h
      · exact h
    all_goals exact h

theorem frameStores_wf (e : Env) (x : Core) (f k : Nat) (l : List Word) (h : Memory.wf m = true) :
    Memory.wf (frameStores e x m f l k).2.1 = true := by
  induction l generalizing x m k with
  | nil => exact h
  | cons w r ih =>
    unfold frameStores
    simp only []
    split
    · exact frameStore_wf _ _ _ _ h
    · exact ih _ _ (frameStore_wf _ _ _ _ h)

theorem trapRecord_wf (e : Env) (h : Memory.wf m = true) : Memory.wf (trapRecord c e m) = true := by
  unfold trapRecord
  split
  · exact h
  · exact denStore_wf _ _ _ _ (denStore_wf _ _ _ _ (denStore_wf _ _ _ _ (denStore_wf _ _ _ _ h)))

theorem Stored.fail_wf (st : Stored) (a : Nat) (l : List Eff) (h : Memory.wf st.mem = true) : Memory.wf (st.fail a l).mem = true := by
  unfold Stored.fail
  split <;> exact h

theorem storePart_wf (e : Env) (sup : Bool) (st : Stored) (p : Nat × Nat × Nat) (h : Memory.wf st.mem = true) :
    Memory.wf (storePart e sup st p).mem = true := by
  unfold storePart
  simp only []
  split
  · split
    · exact writeWord_wf _ _ _ _ _ h
    · exact Stored.fail_wf _ _ _ h
  · split
    · exact h
    · exact Stored.fail_wf _ _ _ h
  all_goals exact Stored.fail_wf _ _ _ h

theorem storeParts_fold_wf (e : Env) (sup : Bool) (l : List (Nat × Nat × Nat)) (st : Stored) (h : Memory.wf st.mem = true) :
    Memory.wf (l.foldl (storePart e sup) st).mem = true := by
  induction l generalizing st with
  | nil => exact h
  | cons p r ih => exact ih _ (storePart_wf e sup st p h)

theorem performStore_wf (e : Env) (b : BufStore) (lost : BitVec 2) (h : Memory.wf m = true) :
    Memory.wf (performStore e m b lost).mem = true := by
  have key : ∀ (l : List (Nat × Nat × Nat)) (st : Stored), Memory.wf st.mem = true →
      Memory.wf (l.foldl (fun st p => if lost.getLsbD (p.1 / 256 - b.addr / 256) then st.fail p.1 [.aborted e.job]
        else storePart e b.sup st p) st).mem = true := by
    intro l
    induction l with
    | nil => intro st h; exact h
    | cons p r ih =>
      intro st h
      refine ih _ ?_
      simp only []
      split
      · exact Stored.fail_wf _ _ _ h
      · exact storePart_wf _ _ _ _ h
  exact key _ _ h

/-! ### Fills, copies and removals -/

theorem fillWord_wf (a d : Nat) (h : Memory.wf m = true) : Memory.wf (fillWord c m a d) = true := by
  unfold fillWord
  split
  · split
    · exact h
    · split
      · exact writeStored_wf _ _ _ _ _ h
      · exact h
  · exact writeStored_wf _ _ _ _ _ h
  · exact h

theorem fillWords_wf (a d n : Nat) (h : Memory.wf m = true) : Memory.wf (fillWords c a d n m) = true := by
  induction n with
  | zero => exact h
  | succ n ih => exact fillWord_wf _ _ ih

theorem forgetWords_wf (d off n : Nat) (h : Memory.wf m = true) : Memory.wf (forgetWords c d off n m) = true := by
  induction n with
  | zero => exact h
  | succ n ih =>
    unfold forgetWords
    simp only []
    split
    · exact forgetWord_wf _ ih
    · exact ih

theorem unwriteWords_wf (a n : Nat) (h : Memory.wf m = true) : Memory.wf (unwriteWords c a n m) = true := by
  induction n generalizing a m with
  | zero => exact h
  | succ n ih =>
    unfold unwriteWords
    simp only []
    refine ih _ ?_
    split
    · exact forgetWord_wf _ h
    · exact h

theorem copyWord_wf (d src dst l q i : Nat) (h : Memory.wf m = true) : Memory.wf (copyWord c m d src dst l q i).2 = true := by
  unfold copyWord
  simp only []
  split
  · exact memPutWord_wf _ _ _ h
  · exact memPutWord_wf _ _ _ h
  · exact forgetWord_wf _ h

theorem denFill_wf (k : Nat) (h : Memory.wf m = true) : Memory.wf (denFill k m) = true := memFill_wf _ _ _ _ h

theorem clusterDens_wf (n : Nat) (h : Memory.wf m = true) : Memory.wf (clusterDens n m) = true :=
  foldl_wf _ _ (fun _ _ h => denFill_wf _ h) h

theorem startDens_wf (p : Nat) (h : Memory.wf m = true) : Memory.wf (startDens c p m) = true :=
  foldl_wf _ _ (fun _ _ h => clusterDens_wf _ h) h

theorem zeroDens_wf (n : Nat) (h : Memory.wf m = true) : Memory.wf (zeroDens n m) = true :=
  foldl_wf _ _ (fun _ _ h => memFill_wf _ _ _ _ h) h

theorem copyDen_wf (a b : Nat) (h : Memory.wf m = true) : Memory.wf (copyDen a b m) = true :=
  foldl_wf (fun (m : Memory) (e : Host.Cell) => memPut m (denMove a b e.1) e.2) _ (fun _ _ h => memPut_wf _ _ h) (memForget_wf _ h)

/-! ### Storage that is wiped, reset, lost or loaded -/

theorem wipeMem_wf (h : Memory.wf m = true) : Memory.wf (wipeMem m) = true :=
  foldl_wf _ _ (fun _ _ h => memFill_wf _ _ _ _ h) h

theorem zeroHub_wf (h : Memory.wf m = true) : Memory.wf (zeroHub m) = true :=
  memFill_wf _ _ _ _ (memFill_wf _ _ _ _ (memFill_wf _ _ _ _ h))

theorem resetMem_wf (h : Memory.wf m = true) : Memory.wf (resetMem m) = true := memForget_wf _ h

theorem forgetDram_wf (h : Memory.wf m = true) : Memory.wf (forgetDram m) = true := memForget_wf _ h

theorem eraseSet_wf (k : Nat) (h : Memory.wf m = true) : Memory.wf (eraseSet m k) = true := memForget_wf _ h

theorem copyFlash_wf (src : Memory) (o n k f : Nat) (h : Memory.wf m = true) : Memory.wf (copyFlash src o n k f m) = true :=
  memFill_wf _ _ _ _ h

/-! ### Transfers -/

theorem storeWord_wf (w : Who) (a d : Nat) (h : Memory.wf m = true) : Memory.wf (storeWord c m w a d).1 = true := by
  unfold storeWord
  split
  · exact writeStored_wf _ _ _ _ _ h
  all_goals exact h

theorem writeWords_wf (w : Who) (a stop i : Nat) (l : List Word) (h : Memory.wf m = true) :
    Memory.wf (writeWords c w a stop l i m) = true := by
  induction l generalizing i m with
  | nil => exact h
  | cons x r ih =>
    unfold writeWords
    simp only []
    refine ih _ ?_
    split
    · exact storeWord_wf _ _ _ h
    · exact h

theorem moveIn_wf (w : Who) (a : Nat) (l : List Word) (h : Memory.wf m = true) : Memory.wf (moveIn c m w a l).mem = true := by
  unfold moveIn
  split <;> exact writeWords_wf _ _ _ _ _ h

theorem moveOut_mem (w : Who) (a n i : Nat) (acc : List Word) : (moveOut c m w a n i acc).mem = m := by
  induction n generalizing c i acc with
  | zero => rfl
  | succ n ih =>
    unfold moveOut
    simp only []
    split
    · exact ih _ _
    · rfl

theorem ctrlWord_wf (s : Chip × Memory) (d n q l p : Nat) (js : List Nat) (w : Nat × Word × Nat) (h : Memory.wf s.2 = true) :
    Memory.wf (ctrlWord s d n q l p js w).2 = true := writeWord_wf _ _ _ _ _ h

theorem slotAccess_wf (s : Chip × Memory) (d : Nat) (a : SlotAccess) (h : Memory.wf s.2 = true) :
    Memory.wf (slotAccess d s a).2 = true := by
  unfold slotAccess
  simp only []
  split
  · exact h
  · exact writeWord_wf _ _ _ _ _ h

theorem rawGo_wf (d : Nat) (b : Bool) (h : Memory.wf m = true) : Memory.wf (rawGo c m d b).2 = true := by
  unfold rawGo
  simp only []
  split
  · exact h
  · split
    · exact h
    · split
      · exact memPutWord_wf _ _ _ h
      · exact h

theorem scrubWord_wf (k f : Nat) (l : Loc) (b : Bool) (h : Memory.wf m = true) :
    Memory.wf (scrubWord c m k f l b).2 = true := by
  unfold scrubWord
  simp only []
  split
  · exact h
  · split <;> exact h
  · simp only []
    split
    · exact h
    · exact writeStored_wf _ _ _ _ _ h
  · exact h

theorem badgerWrite_wf (a : Nat) (w : Word) (h : Memory.wf m = true) : Memory.wf (badgerWrite c m a w).2 = true := by
  have raw : ∀ d w, Memory.wf (badgerRaw c m d w).2 = true := by
    intro d w
    unfold badgerRaw
    simp only []
    split
    · exact rawGo_wf _ _ h
    · exact h
  unfold badgerWrite
  split
  · exact h
  · simp only []
    split
    all_goals first
      | exact h
      | (split
         · first
           | exact raw _ _
           | exact h
         · first
           | exact h
           | (split <;> exact h))

end Sys2Proof.Machine
end

