-- ==== Sys2Proof/Laws/Run.lean ====
section
/-! SUPPORT. Laws/Run.lean: what running a word on the cores of a target does, said once. -/

namespace Sys2Proof.Machine

/-- The word may run now, no trap comes first, and its fetch is an ordinary one. -/
def Chip.takes (c : Chip) (m : Memory) (t : Tgt) : Prop := c.ready t = true ∧ c.dueTrap t = none ∧ c.quietFetch m t = true

theorem Chip.coresOf_nodup (c : Chip) (t : Tgt) : (c.coresOf t).Nodup := by
  cases t with
  | badger => simp [Chip.coresOf]
  | fox n =>
    unfold Chip.coresOf Chip.members
    refine List.Nodup.map ?_ (List.Nodup.filter _ List.nodup_range)
    intro a b h
    exact Nat.add_left_cancel h

/-- What one core becomes when a word runs on it. -/
def Chip.ranCore (c : Chip) (m : Memory) (t : Tgt) (f : Act) (k : Nat) : Core :=
  let e := c.envAt t ((c.coresOf t).headD 0) k
  (f e ((c.core k).fetch e m) m).core

/-- The word leaves the stored words, and raises no effect but requests, the same on every core. -/
def Chip.pureOn (c : Chip) (m : Memory) (t : Tgt) (f : Act) : Prop :=
  ∃ q : List Request, ∀ k ∈ c.coresOf t, let e := c.envAt t ((c.coresOf t).headD 0) k
    (f e ((c.core k).fetch e m) m).mem = m ∧ (f e ((c.core k).fetch e m) m).effs = q.map Eff.request

/-- Setting several cores, each once. -/
def Chip.setCores (c : Chip) (g : Nat → Core) (ks : List Nat) : Chip := ks.foldl (fun d k => d.setCore k (g k)) c

theorem Chip.setCores_core (g : Nat → Core) (ks : List Nat) (c : Chip) (k : Nat) :
    (c.setCores g ks).core k = if k ∈ ks then g k else c.core k := by
  induction ks generalizing c with
  | nil => simp [Chip.setCores]
  | cons a r ih =>
    have := ih (c.setCore a (g a))
    simp only [Chip.setCores, List.foldl_cons] at this ⊢
    rw [this]
    by_cases hk : k ∈ r
    · simp [hk]
    · by_cases ha : k = a
      · subst ha; simp [hk]
      · simp [hk, ha, Chip.core_setCore_ne]

theorem Chip.setCores_eq (g : Nat → Core) (ks : List Nat) (c : Chip) :
    c.setCores g ks = { c with cores := (c.setCores g ks).cores } := by
  induction ks generalizing c with
  | nil => rfl
  | cons a r ih =>
    have := ih (c.setCore a (g a))
    simp only [Chip.setCores, List.foldl_cons] at this ⊢
    exact this

/-- The effects that the fetch on a core leaves. -/
def Chip.fetched (c : Chip) (m : Memory) (t : Tgt) (k : Nat) : List Eff :=
  (c.core k).fetchEffs (c.envAt t ((c.coresOf t).headD 0) k) m

/-- What an ordinary fetch says of every member: its effects are requests, and the lead's. -/
theorem Chip.quietFetch_spec {c : Chip} {m : Memory} {t : Tgt} (h : c.quietFetch m t = true) :
    ∀ k ∈ c.coresOf t, (∀ e ∈ c.fetched m t k, e.isRequest = true) ∧ c.fetched m t k = c.fetched m t ((c.coresOf t).headD 0) := by
  unfold Chip.quietFetch at h
  simp only [Bool.and_eq_true, List.all_eq_true, beq_iff_eq] at h
  exact h.1

/-- A word that leaves the stored words, after an ordinary fetch: the members are set, nothing else moves, and the effects are requests. -/
theorem Chip.runAll_pure {c : Chip} {m : Memory} {t : Tgt} {f : Act} (hq : c.quietFetch m t = true) (h : c.pureOn m t f) :
    ∃ l : List Eff, (∀ e ∈ l, e.isRequest = true)
      ∧ c.runAll m t f = ⟨c.setCores (c.ranCore m t f) (c.coresOf t), m, l⟩ := by
  have hq := Chip.quietFetch_spec hq
  unfold Chip.runAll Chip.setCores
  simp only []
  unfold Chip.fetched at hq
  unfold Chip.pureOn at h
  obtain ⟨q, h⟩ := h
  have hreqs : ∀ e ∈ q.map Eff.request, e.isRequest = true := by
    intro e he
    obtain ⟨r, -, rfl⟩ := List.mem_map.1 he
    rfl
  have hr : c.ranCore m t f = fun k => (f (c.envAt t ((c.coresOf t).headD 0) k)
      ((c.core k).fetch (c.envAt t ((c.coresOf t).headD 0) k) m) m).core := rfl
  rw [hr]
  generalize (c.coresOf t).headD 0 = lead at hq h ⊢
  have key : ∀ (ks : List Nat) (d : Chip) (l : List Eff), (∀ k ∈ ks, k ∈ c.coresOf t) → (∀ e ∈ l, e.isRequest = true) →
      ∃ l' : List Eff, (∀ e ∈ l', e.isRequest = true) ∧ ks.foldl (fun (st : Ran) k =>
        { chip := st.chip.setCore k (f (c.envAt t lead k) ((c.core k).fetch (c.envAt t lead k) m) st.mem).core,
          mem := (f (c.envAt t lead k) ((c.core k).fetch (c.envAt t lead k) m) st.mem).mem,
          effs := st.effs ++ keepEffs (k == lead) ((c.core k).fetchEffs (c.envAt t lead k) m
            ++ (f (c.envAt t lead k) ((c.core k).fetch (c.envAt t lead k) m) st.mem).effs) }) ⟨d, m, l⟩
      = ⟨ks.foldl (fun d k => d.setCore k (f (c.envAt t lead k) ((c.core k).fetch (c.envAt t lead k) m) m).core) d, m, l'⟩ := by
    intro ks
    induction ks with
    | nil => intro d l _ hl; exact ⟨l, hl, rfl⟩
    | cons a r ih =>
      intro d l hsub hl
      have ha := h a (hsub a (by simp))
      simp only [] at ha
      simp only [List.foldl_cons, ha.1, ha.2]
      refine ih _ _ (fun k hk => hsub k (by simp [hk])) ?_
      intro e he
      rcases List.mem_append.1 he with h1 | h1
      · exact hl e h1
      · unfold keepEffs at h1
        have h2 : e ∈ (c.core a).fetchEffs (c.envAt t lead a) m ++ q.map Eff.request := by
          split at h1
          · exact h1
          · exact (List.mem_filter.1 h1).1
        rcases List.mem_append.1 h2 with h3 | h3
        · exact (hq a (hsub a (by simp))).1 e h3
        · exact hreqs e h3
  exact key (c.coresOf t) c [] (fun _ hk => hk) (by simp)

/-! ## The comparison -/

/-- Members that present the same agree. -/
theorem judge_same {α : Type} [DecidableEq α] {v : Nat → α} {ks : List Nat} {x : α} (h : ∀ k ∈ ks, v k = x) : judge v ks = .agree := by
  match ks, h with
  | [], _ => rfl
  | [_], _ => rfl
  | [a, b], h => simp [judge, h a, h b]
  | [a, b, d], h => simp [judge, h a, h b, h d]
  | _ :: _ :: _ :: _ :: _, _ => rfl

/-- A comparison in which every member presents the same, with no injection armed at it, finds nothing. -/
theorem Chip.compareAt_same {c : Chip} {m : Memory} {t : Tgt} {v : Nat → List Request} {q : List Request} (h : ∀ k ∈ c.coresOf t, v k = q)
    (hi : match t with | .fox n => c.injAt n.val 2 = none | .badger => True) : c.compareAt m t v = (c, true) := by
  cases t with
  | badger => simp [Chip.compareAt, judge_same h]
  | fox n =>
    have hv : ∀ k ∈ c.members n.val, v (3 * n.val + k) = q := fun k hk => h _ (List.mem_map.2 ⟨k, hk, rfl⟩)
    have hj := judge_same (v := fun k => v (3 * n.val + k)) hv
    simp only [] at hi
    simp [Chip.compareAt, hi, hj, injReqs, Chip.injEnd, Chip.owlReport]

/-- A pure word after an ordinary fetch is presented as it stands. -/
theorem Chip.compareWord_pure {c : Chip} {m : Memory} {t : Tgt} {f : Act} (hq : c.quietFetch m t = true) (h : c.pureOn m t f) :
    c.compareWord m t f = (c, true) := by
  obtain ⟨q, h⟩ := h
  refine Chip.compareAt_same (q := (c.fetched m t ((c.coresOf t).headD 0) ++ q.map Eff.request).filterMap Eff.request?) (fun k hk => ?_) ?_
  · have h1 := h k hk
    simp only [] at h1
    have h2 := (Chip.quietFetch_spec hq k hk).2
    unfold Chip.wordReqs
    simp only [h1.2]
    exact congrArg (fun l => (l ++ q.map Eff.request).filterMap Eff.request?) h2
  · unfold Chip.quietFetch at hq
    simp only [Bool.and_eq_true] at hq
    have h3 := hq.2
    cases t <;> simp_all

/-! ## The end of a word -/

/-- Requests leave nothing for the module. -/
theorem applyAll_requests (m : Memory) (l : List Eff) (h : ∀ e ∈ l, e.isRequest = true) (c : Chip) : applyAll m l c = (c, m) := by
  unfold applyAll
  induction l generalizing c with
  | nil => rfl
  | cons e r ih =>
    have he := h e (by simp)
    cases e <;> simp [Eff.isRequest] at he
    exact ih (fun e hr => h e (by simp [hr])) _

/-- A word that enters no exception leaves the executive nothing to do. -/
theorem Chip.execReact_same {c : Chip} {m : Memory} {n : Nat} {x y : Core} (h : y.erec.length = x.erec.length) :
    c.execReact m n x y = c := by
  have hn : ∀ cause, entered x y cause = false := by
    intro cause
    simp [entered, h]
  unfold Chip.execReact
  split
  · rfl
  · simp [hn]

/-- While a member executes, no escalation has stopped the target. -/
theorem Chip.stopReact_same {c : Chip} {m : Memory} {t : Tgt} {k : Nat} (hk : k ∈ c.coresOf t)
    (hr : (c.core k).run ≠ .stopped) : c.stopReact m t = c := by
  have : (c.coresOf t).all (fun k => (c.core k).run == .stopped) = false := by
    rw [List.all_eq_false]
    exact ⟨k, hk, by simpa using hr⟩
  unfold Chip.stopReact
  simp [this]

theorem Chip.coresOf_congr {c d : Chip} (h : c.regs = d.regs) (t : Tgt) : c.coresOf t = d.coresOf t := by
  cases t with
  | badger => rfl
  | fox n => simp [Chip.coresOf, Chip.members, Chip.fld, Chip.coreFenced, Chip.reg, h]

theorem Chip.takes_ne {c : Chip} {m : Memory} {t : Tgt} (h : c.takes m t) : c.coresOf t ≠ [] := by
  have := h.1
  unfold Chip.ready at this
  simp only [Bool.and_eq_true] at this
  intro h0
  simp [h0] at this

theorem Chip.runWord_takes {c : Chip} {m : Memory} {t : Tgt} {f : Act} (h : c.takes m t) (hp : c.pureOn m t f) :
    c.runWord m t f = (c.runAll m t f).finish c t := by
  unfold Chip.runWord Chip.comparedRun
  simp [h.1, h.2.1, Chip.compareWord_pure h.2.2 hp]

/-- A word after which no supervisor call has begun leaves the barrier as it is. -/
theorem Chip.newCall_same {c : Chip} {n : Nat} {x y : Core} (h : y.erec.length = x.erec.length) : c.newCall n x y = c := by
  have : entered x y 0x0C = false := by simp [entered, h]
  simp [Chip.newCall, this]

/-- **What a word does that touches its cores alone.** The members take what the word computes, each from its own state;
every other core, every register, every unit but the cluster's step counter and the stored words are as before. -/
theorem Chip.runWord_pure {c : Chip} {m : Memory} {t : Tgt} {f : Act} (ht : c.takes m t) (hp : c.pureOn m t f)
    (hr : ∀ k ∈ c.coresOf t, (c.ranCore m t f k).run ≠ .stopped)
    (he : ∀ k ∈ c.coresOf t, (c.ranCore m t f k).erec.length = (c.core k).erec.length) :
    (c.runWord m t f).2 = m
      ∧ (∀ k, (c.runWord m t f).1.core k = if k ∈ c.coresOf t then c.ranCore m t f k else c.core k)
      ∧ (c.runWord m t f).1 = { c with cores := (c.runWord m t f).1.cores, clusters := (c.runWord m t f).1.clusters,
                                       freeCtr := c.freeCtr + 1 } := by
  obtain ⟨l, hreq, hrun⟩ := Chip.runAll_pure ht.2.2 hp
  rw [Chip.runWord_takes ht hp, hrun]
  obtain ⟨lead, rest, hks⟩ : ∃ a r, c.coresOf t = a :: r := List.exists_cons_of_ne_nil (Chip.takes_ne ht)
  have hl : lead ∈ c.coresOf t := by simp [hks]
  generalize hd : c.setCores (c.ranCore m t f) (c.coresOf t) = d
  have hcore : ∀ k, d.core k = if k ∈ c.coresOf t then c.ranCore m t f k else c.core k := by
    intro k; rw [← hd, Chip.setCores_core]
  have hrest : d = { c with cores := d.cores } := by
    have := Chip.setCores_eq (c.ranCore m t f) (c.coresOf t) c
    rw [hd] at this
    exact this
  have hregs : d.regs = c.regs := by rw [hrest]
  have hlead : (d.core lead).erec.length = (c.core lead).erec.length := by
    rw [hcore, if_pos hl]; exact he lead hl
  have hstop : ∀ e : Chip, e.regs = c.regs → e.cores = d.cores → e.stopReact m t = e := by
    intro e h1 h2
    refine Chip.stopReact_same (k := lead) ?_ ?_
    · rw [Chip.coresOf_congr h1]; exact hl
    · have : e.core lead = d.core lead := by simp [Chip.core, h2]
      rw [this, hcore, if_pos hl]; exact hr lead hl
  unfold Ran.finish
  simp only [hks, List.headD_cons, applyAll_requests _ _ hreq]
  cases t with
  | badger =>
    simp only []
    rw [hstop d hregs rfl]
    refine ⟨trivial, ?_, ?_⟩
    · intro k; rw [Chip.fresh_core, hcore, hks]
    · rw [hrest]; rfl
  | fox n =>
    simp only [Chip.newCall_same hlead, Chip.execReact_same hlead]
    split
    · rw [hstop (d.setClu _ _) (by simpa using hregs) rfl]
      refine ⟨trivial, ?_, ?_⟩
      · intro k; rw [Chip.fresh_core, Chip.setClu_core, hcore, hks]
      · rw [hrest]; rfl
    · rw [hstop d hregs rfl]
      refine ⟨trivial, ?_, ?_⟩
      · intro k; rw [Chip.fresh_core, hcore, hks]
      · rw [hrest]; rfl

end Sys2Proof.Machine
end

