-- ==== Sys2Proof/Tests/Slice0.lean ====
section
/-! SUPPORT. Tests/Slice0.lean: the checks of WellFormed refuse an ill-formed command each; a few results of the manual's own
examples; and for every statement of Obligations.lean, states and operands that meet its hypotheses together. -/

namespace Sys2Proof.Tests

set_option Elab.async false

open Sys2Proof.Machine Sys2Proof.Claims

/-! ## Each check of WellFormed refuses -/

/-- A command whose header fits. -/
def cmd0 : Cmd := { chain := 0, op := 2, part := 0, mod := true, tag := 1, cseq := 1, params := [0#64] }

/-- A frame whose fields fit. -/
def frame0 : Frame := ⟨1, 0, 0, 0, 0, 0, false, 0#64, [], 0#32⟩

/-- A read piece of one word. -/
def piece0 : Piece := ⟨0, 0, 0, false, 0x400000000000, [], 1, none⟩

/-- A hop and a detection whose fields fit. -/
def hop0 : Hop := ⟨4, 0, 0, 0, 0, []⟩
def det0 : Detection := ⟨0x01, 49, 0, 1, 0, [], 0, 0, false, false⟩

theorem test_wf_accepts : Instr.wf (.cmdStatus cmd0) = true ∧ Instr.wf (.frameReceive 0 frame0) = true
    ∧ Instr.wf (.matrixPieceGrant [piece0] ⟨0, 0⟩) = true ∧ Instr.wf (.hopReplay hop0 true) = true
    ∧ Instr.wf (.faultDetection [det0]) = true := by decide

theorem test_wf_refuses_command : ∀ c ∈ [{ cmd0 with chain := 2 }, { cmd0 with op := 256 }, { cmd0 with part := 8 },
    { cmd0 with tag := 65536 }, { cmd0 with cseq := 65536 }], Instr.wf (.cmdStatus c) = false := by decide

theorem test_wf_refuses_long_command : Instr.wf (.cmdStatus { cmd0 with params := List.replicate 65536 0#64 }) = false := by
  simp only [Instr.wf, Cmd.wf, List.length_replicate]; decide

theorem test_wf_refuses_request : ∀ r ∈ [Request.mk (2 ^ 48) 8 false 0, ⟨0, 3, false, 0⟩, ⟨0, 1, true, 256⟩],
    Instr.wf (.requestCompare .badger [(0, r)]) = false := by decide

theorem test_wf_refuses_frame : ∀ f ∈ [{ frame0 with typ := 16 }, { frame0 with dst := 64 }, { frame0 with src := 64 },
    { frame0 with tag := 256 }, { frame0 with seq := 4096 }, { frame0 with ack := 4096 }, { frame0 with data := List.replicate 128 0#64 }],
    Instr.wf (.frameReceive 0 f) = false := by decide +kernel

theorem test_wf_refuses_burst : ∀ p ∈ [{ piece0 with die := 5 }, { piece0 with port := 0x6C }, { piece0 with die := 4, port := 9 }, { piece0 with id := 128 },
    { piece0 with addr := 2 ^ 48 }, { piece0 with nwords := 0 }, { piece0 with nwords := 513 }, { piece0 with words := [(0#64, 0xFF#8)] },
    { piece0 with write := true }, { piece0 with write := true, addr := 0x400000000FF8, words := [(0#64, 0xFF#8), (0#64, 0xFF#8)] }],
    Instr.wf (.matrixPieceGrant [p] ⟨0, 0⟩) = false := by decide

theorem test_wf_refuses_slot_hop_detection_bytes :
    Instr.wf (.scratchAccess 0 0 [⟨256, 0, none, none⟩]) = false ∧ Instr.wf (.scratchAccess 0 0x06000000 [⟨0, 0x06000000, none, none⟩]) = false
    ∧ (∀ h ∈ [{ hop0 with code := 32 }, { hop0 with die := 5 }, { hop0 with unit := 16 }, { hop0 with ch := 4 }],
        Instr.wf (.hopReplay h true) = false)
    ∧ (∀ d ∈ [{ det0 with source := 256 }, { det0 with inst := 91 }, { det0 with loc := 2 ^ 32 }, { det0 with level := 16 },
          { det0 with loc := 4 * 2 ^ 28 }, { det0 with level := 4 }, { det0 with loc := 0xCA00000 }],
        Instr.wf (.faultDetection [d]) = false ∧ Instr.wf (.cmdFaultClear cmd0 [d]) = false)
    ∧ Instr.wf (.imgData true 0 (List.replicate 256 0#8)) = false ∧ Instr.wf (.lcRequest true (List.replicate 256 0#8)) = false := by decide +kernel

/-! ## States to witness hypotheses -/

/-- A state with register words put over those of reset. -/
def withRegs (s : State) (l : List (Nat × Word)) : State :=
  { s with chip := l.foldl (fun c e => c.setReg e.1 e.2) s.chip }

/-- A register's reset word with one field replaced. -/
def rst (a : Nat) (f : Fld) (v : Nat) : Nat × Word := (a, fput (regReset a) f v)

/-- A stored word with the check bits of its folded address. -/
def word (m : Memory) (key fold v : Nat) : Memory := memPutWord m key v (codeCheck v fold)

/-- Clean words with a value at an offset of the Dens of cluster 0 and of Badger. -/
def dens (o v : Nat) (m : Memory) : Memory := [0, 1, 2, 144, 145].foldl (fun m k => word m (denBase k + o) (o / 8) v) m

/-- Cluster 0 in TMR with three cores in state `x`, and both Badger cores in state `y`. -/
def trio (x y : Core) : State :=
  let s := withRegs State.reset [rst (R.CLK_CLUSTER 0) F.CLK_CLUSTER_GATED 0, rst (R.OWL_CORE 0 0) F.OWL_CORE_ROLE 0,
    rst (R.OWL_CORE 0 1) F.OWL_CORE_ROLE 0, rst (R.OWL_CORE 0 2) F.OWL_CORE_ROLE 0, rst (R.OWL_STAT 0) F.OWL_STAT_CONFIG 1]
  { s with chip := [(0, x), (1, x), (2, x), (144, y), (145, y)].foldl (fun c e => c.setCore e.1 e.2) s.chip }

/-- A core that executes in supervisor mode, and one in user mode. -/
def sup0 : Core := { run := .executing, pc := 0x400000001000 }
def user0 : Core := { sup0 with sup := false }

/-- A core with general registers set. -/
def withG (x : Core) (l : List (Reg × Nat)) : Core := l.foldl (fun x e => x.setG e.1 (wNat e.2)) x

theorem cores_trio (x y : Core) : (trio x y).chip.coresOf (.fox 0) = [0, 1, 2] :=
  (Chip.coresOf_congr (c := (trio x y).chip) (d := (trio {} {}).chip) rfl (.fox 0)).trans (by decide)

theorem cores_badger (x y : Core) : (trio x y).chip.coresOf .badger = [144, 145] := rfl

theorem all_trio {x y : Core} {P : Nat → Prop} (h : ∀ k ∈ [0, 1, 2], P k) : ∀ k ∈ (trio x y).chip.coresOf (.fox 0), P k := by
  rw [cores_trio]; exact h

theorem only_fox {P : Nat → Prop} (h : P 0) : ∀ cl, tgtCluster (.fox 0) = some cl → P cl := by
  intro cl e; cases e; exact h

theorem only_badger {P : Nat → Prop} : ∀ cl, tgtCluster .badger = some cl → P cl := by
  intro cl e; cases e

/-! ## Fox and Badger words -/

/-- `takes` for both targets: the hypothesis of every word without another. -/
theorem test_words_are_taken : takes (trio sup0 sup0) (.fox 0) ∧ takes (trio sup0 sup0) .badger ∧ takes (trio user0 user0) (.fox 0) := by
  unfold takes; decide +kernel

/-- The lowest and the highest G15 from which an entry's frame fits. -/
theorem test_entry_has_room : ∀ g ∈ [0x6FFFFFFE0060, 0x6FFFFFFE8000],
    let s := trio (withG user0 [(15, g)]) sup0
    takes s (.fox 0) ∧ ∀ k ∈ s.chip.coresOf (.fox 0), canEnter s (.fox 0) k ∧ (s.chip.core k).pc < 2 ^ 48 := by
  intro g hg
  simp only [List.mem_cons, List.not_mem_nil, or_false] at hg
  rcases hg with rfl | rfl
  all_goals
    refine ⟨by unfold takes; decide, all_trio fun k hk => ⟨⟨?_, ?_, ?_, ?_, ?_, only_fox (by decide)⟩, ?_⟩⟩
    all_goals revert k; decide

/-- The low and the high word pair of a legal short pair, and the boundary addresses of the refused ones, in user mode. -/
theorem test_refused_words : ∀ v ∈ [0x1000000000000, 0x7FFFFFFFFFFFFFFF, 1, 0xFFFFFFFFFFFE],
    let s := trio (withG user0 [(15, 0x6FFFFFFE8000), (1, v)]) sup0
    takes s (.fox 0) ∧ s.chip.barred (.fox 0) = false ∧ ∀ k ∈ s.chip.coresOf (.fox 0), canEnter s (.fox 0) k
      ∧ (s.chip.core k).pc < 2 ^ 48 ∧ (s.chip.core k).sup = false
      ∧ (2 ^ 48 ≤ memSum (s.chip.core k) (.based 1 0) ∨ ((s.chip.core k).g 1).toNat % 4 ≠ 0 ∧ ((s.chip.core k).g 1).toNat % 8 ≠ 0) := by
  simp only [takes, canEnter, ← Option.mem_def]; decide +kernel

/-- Words of sections 9.3 and 9.9 by the encodings of Tables 9.5 to 9.7; the word of zeros and one with bit 15 set encode nothing. -/
theorem test_words_decode : let t := Tgt.fox 0
    decodeWord t 0x82A60193 = some (.shortPair t (.add 10 6) (.mov 9 3)) ∧ decodeWord t 0x82A6019A = some (.shortPair t (.add 10 6) (.mov 9 10))
      ∧ decodeWord t 0x0D651000 = some (.mul t 6 5 1) ∧ decodeWord t 0x70408008 = some (.vld t 4 0 2 8)
      ∧ decodeWord t 0x74A48004 = some (.vext t 10 4 2 4) ∧ decodeWord t 0x734A8004 = some (.vins t 4 2 4 10)
      ∧ decodeWord t 0x7C710000 = some (.sIssue t 7 1) ∧ decodeWord t 0 = none ∧ decodeWord t 0x82A68193 = none := by decide +kernel

/-- An interrupt of each cause, or a CRIT window whose last cycle is this one, waits at a word. -/
theorem test_interrupts_wait : ∀ w ∈ [([(0x0A, 5#64)], none), ([(0x0E, 0#64)], none), ([(0x11, 0#64)], none), ([], some 0)],
    let x : Core := { withG user0 [(15, 0x6FFFFFFE8000)] with irq := w.1, critEnd := w.2 }
    let s := trio x sup0
    takes s (.fox 0) ∧ ∀ k ∈ s.chip.coresOf (.fox 0), canEnter s (.fox 0) k ∧ (envOfCore s (.fox 0) k).job = none
      ∧ (s.chip.core k).atWord = true ∧ ∀ c ∈ (s.chip.core k).critEnd, c ≤ (envOfCore s (.fox 0) k).cycle := by
  simp only [takes, canEnter, ← Option.mem_def]; decide +kernel

/-- A supervisor core with no CRIT window open; the largest operand that opens one is 511. -/
theorem test_crit_opens : let s := trio sup0 sup0
    takes s (.fox 0) ∧ (∀ k ∈ s.chip.coresOf (.fox 0), (s.chip.core k).sup = true ∧ (s.chip.core k).critEnd = none)
      ∧ (511#16).toNat < 512 := by
  simp only [takes]; decide

/-- A core whose CRIT words are refused: in supervisor mode inside a window, and in user mode; the first operand that is illegal is 512. -/
theorem test_crit_refused : ∀ v ∈ [(true, some 9), (false, none)],
    let s := trio { withG sup0 [(15, 0x6FFFFFFE8000)] with sup := v.1, critEnd := v.2 } sup0
    takes s (.fox 0) ∧ 512 ≤ (512#16).toNat ∧ 512#16 ≠ 0x8000#16 ∧ ∀ k ∈ s.chip.coresOf (.fox 0), canEnter s (.fox 0) k
      ∧ (s.chip.core k).pc < 2 ^ 48 ∧ (s.chip.core k).sup = v.1 ∧ (s.chip.core k).critEnd = v.2 := by
  simp only [takes, canEnter, ← Option.mem_def]; decide +kernel

/-- A frame at offset 0x1000 that returns to user mode in context 2. -/
def framedState : State :=
  let x : Core := { sup0 with exc := true, erec := [⟨false, 2⟩], live := [0, 2], resident := [0, 2] }
  let s := trio (withG x [(14, 0x6FFFFFFE1000)]) sup0
  { s with mem := [(0, 0x400000001004), (8, 0x0C02000000000009), (0x10, 3), (0x18, 0x6FFFFFFE8000), (0x20, 1), (0x28, 2), (0x30, 3), (0x38, 4),
      (0x40, 5), (0x48, 6), (0x50, 7), (0x58, 8)].foldl (fun m e => dens (0x1000 + e.1) e.2 m) s.mem }

theorem test_frame_returns : let s := framedState
    takes s (.fox 0) ∧ s.chip.barred (.fox 0) = false ∧ ∀ k ∈ s.chip.coresOf (.fox 0), let x := s.chip.core k
      x.sup = true ∧ x.mustDrain (envOfCore s (.fox 0) k) = false ∧ x.winFresh = true ∧ (x.g 14).toNat = ownDen (.fox 0) + 0x1000
        ∧ (∀ i < 12, denClean s k (0x1000 + 8 * i)) ∧ x.spill = none ∧ x.erec = [] ++ [⟨false, 2⟩]
        ∧ denData s k 0x1008 / 2 ^ 47 % 2 = 0 ∧ denData s k 0x1008 / 2 ^ 48 % 16 = 2
        ∧ x.resident.contains 2 = true ∧ x.live.contains 2 = true := by
  simp only [takes, denClean, denData]; decide +kernel

/-- A user core that calls the supervisor at the top of its stack may return afterwards. -/
theorem test_call_then_return : let s := trio (withG user0 [(15, 0x6FFFFFFE8000)]) sup0
    takes s (.fox 0) ∧ s.chip.barred (.fox 0) = false
      ∧ (∀ k ∈ s.chip.coresOf (.fox 0), let x := s.chip.core k
          canEnter s (.fox 0) k ∧ x.pc < 2 ^ 48 ∧ x.exc = false ∧ x.cur < 4 ∧ x.resident = [x.cur] ∧ x.live = [x.cur]
            ∧ x.spill = none)
      ∧ (match exec (.svc (.fox 0) 5) s with
          | .next u => let w := windowsDecided u (.fox 0)
            w.chip.ready (.fox 0) && (w.chip.dueTrap (.fox 0)).isNone
              && (match exec (.rfe (.fox 0)) w with
                | .next v => ((v.chip.core 0).pc, (v.chip.core 0).exc) == (((s.chip.core 0).pc + 4) % 2 ^ 48, false)
                | _ => false)
          | _ => false) = true := by
  simp only [takes, canEnter, ← Option.mem_def]; decide +kernel

/-- Branch targets at both ends of the address space, and register targets likewise. -/
theorem test_branch_targets :
    (∀ v ∈ [0, 0xFFFFFFFFFFFC], let s := trio (withG user0 [(1, v)]) sup0
      takes s (.fox 0) ∧ ∀ k ∈ s.chip.coresOf (.fox 0), ((s.chip.core k).g 1).toNat < 2 ^ 48 ∧ ((s.chip.core k).g 1).toNat % 4 = 0)
    ∧ (∀ w ∈ [(0, 0#20, 0), (4, 0xFFFFF#20, 0), (0xFFFFFFFFFFF8, 1#20, 0xFFFFFFFFFFFC)],
        ((w.2.2 : Nat) : Int) = ((w.1 : Nat) : Int) + 4 * w.2.1.toInt ∧ w.2.2 < 2 ^ 48) := by
  simp only [takes]; decide +kernel

/-- A call with one free entry of the return stack, and one with none in use; a return with one entry on it. -/
theorem test_calls_have_room : ∀ r ∈ [0x8008, 0x8800],
    let s := trio ((withG user0 [(1, 0x400000002000)]).setBank 0 { (withG user0 [(1, 0x400000002000)]).bank with rsp := r }) sup0
    takes s (.fox 0) ∧ s.chip.firstTrap (.fox 0) = none ∧ ∀ k ∈ s.chip.coresOf (.fox 0), let x := s.chip.core k
      x.cur < (envOfCore s (.fox 0) k).nctx ∧ x.rsp % 8 = 0 ∧ x.stackBase + 8 ≤ x.rsp ∧ x.rsp ≤ x.stackBase + 0x800
        ∧ windowTakes s (.fox 0) k 1 ∧ (∀ cl ∈ tgtCluster (.fox 0), (s.chip.clu cl).resync = none)
        ∧ ((0x400000000FFC : Nat) : Int) = ((x.pc : Nat) : Int) + 4 * ((0xFFFFFF#24).toInt) := by
  simp only [takes, windowTakes, ← Option.mem_def]; decide +kernel

theorem test_return_has_an_entry : ∀ r ∈ [0x8000, 0x87F8],
    let s := trio (user0.setBank 0 { rsp := r, shadow := [0x400000003000] }) sup0
    let s := { s with mem := dens r 0x400000003000 s.mem }
    takes s (.fox 0) ∧ s.chip.firstTrap (.fox 0) = none ∧ ∀ k ∈ s.chip.coresOf (.fox 0), let x := s.chip.core k
      x.cur < (envOfCore s (.fox 0) k).nctx ∧ x.rsp % 8 = 0 ∧ x.stackBase ≤ x.rsp ∧ x.rsp + 8 ≤ x.stackBase + 0x800
        ∧ denClean s k x.rsp ∧ x.shadow = denData s k x.rsp :: [] := by
  simp only [takes, denClean, denData]; decide +kernel

/-- A load of the last byte, and of the first word, of the core's own Den that user mode may reach. -/
theorem test_loads_deliver : ∀ w ∈ [(0, 8), (0x7FF8, 8), (0x7FFF, 1)],
    let s := trio (withG user0 [(1, 0x6FFFFFFE0000 + w.1)]) sup0
    let s := { s with mem := dens (w.1 / 8 * 8) 0x8877665544332211 s.mem }
    takes s (.fox 0) ∧ ∀ k ∈ s.chip.coresOf (.fox 0), memSum (s.chip.core k) (.based 1 0) < 2 ^ 48
      ∧ denClean s k (w.1 / 8 * 8)
      ∧ loadBytes (envOfCore s (.fox 0) k) (fetched s (.fox 0) k) s.mem (memSum (s.chip.core k) (.based 1 0)) w.2 true
          = .value (0x8877665544332211 / 2 ^ (8 * (w.1 % 8)) % 2 ^ (8 * w.2)) [] [] := by
  simp only [takes, denClean, denData]; decide +kernel

/-- Supervisor mode above 0x8000 outside the hardware-only areas; user mode there. -/
theorem test_own_den_areas : let s := trio user0 sup0
    let e := envOfCore s (.fox 0) 0
    0x9000 ≤ e.denSize ∧ e.hwArea 0x8FF8 = false ∧ e.hwArea 0x8FFF = false ∧ (s.chip.core 0).sup = false
      ∧ denClean { s with mem := dens 0x8FF8 7 s.mem } 0 0x8FF8 := by
  simp only [denClean, denData]; decide +kernel

/-- A buffered store that holds all of an access, and one that it meets in part at either end. -/
theorem test_forwarding_cases : let s := trio user0 sup0
    let e := envOfCore s (.fox 0) 0
    let x := { user0 with win := { user0.win with buf := [] ++ [⟨0x400000001008, 8, 5, false, none⟩], stores := 1 } }
    (∀ a ∈ [0x400000001004, 0x400000001008, 0x40000000100C], preExc e x a 4 false = none ∧ e.denOff a = none)
      ∧ preExc e x 0x400000001000 8 false = none ∧ preExc e x 0x400000001008 8 false = none
      ∧ preExc e { x with win := { x.win with buf := [⟨0x400000001008, 4, 5, false, none⟩] } } 0x400000001008 8 false = none := by decide +kernel

/-- A store outside the own Den, with the window empty and with 31 stores in it. -/
theorem test_stores_have_room : ∀ n ∈ [0, 31],
    let x := withG { user0 with win := { user0.win with stores := n } } [(1, 0x400000001008)]
    let s := trio x sup0
    takes s (.fox 0) ∧ ∀ k ∈ s.chip.coresOf (.fox 0), windowTakes s (.fox 0) k 1
      ∧ memSum (s.chip.core k) (.based 1 0) < 2 ^ 48 ∧ (envOfCore s (.fox 0) k).denOff (memSum (s.chip.core k) (.based 1 0)) = none
      ∧ ∀ n ∈ [1, 2, 4, 8], preExc (envOfCore s (.fox 0) k) (s.chip.core k) (memSum (s.chip.core k) (.based 1 0)) n true = none := by
  simp only [takes, windowTakes, ← Option.mem_def]; decide +kernel

/-- Stores, pushes, pops and block moves at both ends of the Den that user mode may reach. -/
theorem test_own_den_stores : ∀ o ∈ [0, 0x7FF8],
    let s := trio (withG user0 [(1, 0x6FFFFFFE0000 + o)]) sup0
    let s := { s with mem := dens o 1 s.mem }
    takes s (.fox 0) ∧ ∀ k ∈ s.chip.coresOf (.fox 0), windowTakes s (.fox 0) k 1
      ∧ memSum (s.chip.core k) (.based 1 0) = ownDen (.fox 0) + o ∧ o % 8 + 8 ≤ 8 ∧ o + 8 ≤ 0x8000 ∧ denClean s k (o / 8 * 8)
      ∧ ∀ cl ∈ tgtCluster (.fox 0), (s.chip.clu cl).resync = none := by
  simp only [takes, windowTakes, denClean, denData, ← Option.mem_def]; decide +kernel

theorem test_pushes_have_room : ∀ o ∈ [8, 0x8000],
    let s := trio (withG user0 [(15, 0x6FFFFFFE0000 + o)]) sup0
    takes s (.fox 0) ∧ ∀ k ∈ s.chip.coresOf (.fox 0), windowTakes s (.fox 0) k 1
      ∧ ((s.chip.core k).g 15).toNat = ownDen (.fox 0) + o ∧ o % 8 = 0
      ∧ ∀ cl ∈ tgtCluster (.fox 0), (s.chip.clu cl).resync = none := by
  simp only [takes, windowTakes, ← Option.mem_def]; decide +kernel

theorem test_pops_have_a_word : ∀ o ∈ [0, 0x7FF8],
    let s := trio (withG user0 [(15, 0x6FFFFFFE0000 + o)]) sup0
    let s := { s with mem := dens o 1 s.mem }
    takes s (.fox 0) ∧ ∀ k ∈ s.chip.coresOf (.fox 0),
      ((s.chip.core k).g 15).toNat = ownDen (.fox 0) + o ∧ o % 8 = 0 ∧ o + 8 ≤ 0x8000 ∧ denClean s k o := by
  simp only [takes, denClean, denData]; decide +kernel

/-- DINV of an address, and IFLUSH with every store acknowledged in a new window. -/
theorem test_cache_words_apply : let s := trio user0 sup0
    takes s (.fox 0) ∧ ∀ k ∈ s.chip.coresOf (.fox 0), memSum (s.chip.core k) (.based 0 8) < 2 ^ 48
      ∧ (s.chip.core k).mustDrain (envOfCore s (.fox 0) k) = false ∧ (s.chip.core k).winFresh = true := by
  simp only [takes]; decide +kernel

/-- Clean words of small values from an offset on, in the Dens of some cores with rising bases. -/
def block (ks : List Nat) (o : Nat) (vs : List Nat) : Memory :=
  (ks.flatMap fun k => (List.range (8 * vs.length)).map fun j =>
      (denBase k + o + j, if j % 8 = 0 then BitVec.ofNat 8 (vs.getD (j / 8) 0) else 0#8))
    ++ ks.flatMap fun k => (List.range vs.length).map fun i =>
      (chkKey (denBase k + o + 8 * i), BitVec.ofNat 8 (codeCheck (vs.getD i 0) (o / 8 + i)))

/-- Cluster 0 with one core left, in state `x`. -/
def solo (x : Core) : State :=
  let s := withRegs State.reset [rst (R.CLK_CLUSTER 0) F.CLK_CLUSTER_GATED 0, rst (R.OWL_CORE 0 0) F.OWL_CORE_ROLE 0]
  { s with chip := s.chip.setCore 0 x }

/-- Block moves, group loads and group stores at the top of the Den that user mode may reach. -/
theorem test_blocks_have_room :
    let s := solo (withG user0 [(1, 0x6FFFFFFE7F80)])
    let s := { s with mem := block [0] 0x7F80 (List.range 16) }
    takes s (.fox 0) ∧ (s.chip.clu 0).resync = none ∧ ∀ k ∈ s.chip.coresOf (.fox 0), k = 0 ∧
      ((s.chip.core k).g 1).toNat = ownDen (.fox 0) + 0x7F80 ∧ (s.chip.core k).stm = none ∧ windowTakes s (.fox 0) k 16
        ∧ windowTakes s (.fox 0) k 4 ∧ ∀ i < 16, denClean s k (0x7F80 + 8 * i) := by
  simp only [takes, windowTakes, denClean, denData, ← Option.mem_def]; decide +kernel

theorem test_save_areas_have_room :
    let s := trio sup0 (withG { sup0 with saveHead := 0x6FFFFFFF7F80 } [(1, 0x6FFFFFFF7F80)])
    let s := { s with mem := block [144, 145] 0x7F80 [0, 0, 1, 2, 3, 4, 5, 6, 7, 8, 9, 10] }
    takes s .badger ∧ ∀ k ∈ s.chip.coresOf .badger, let x := s.chip.core k
      windowTakes s .badger k 12 ∧ (x.g 1).toNat = ownDen .badger + 0x7F80 ∧ x.saveHead = ownDen .badger + 0x7F80
        ∧ (∀ i < 12, denClean s k (0x7F80 + 8 * i)) ∧ denData s k (0x7F80 + 8) % 2 = 0
        ∧ denData s k (0x7F80 + 8) / 16 % 16 = x.key := by
  simp only [takes, windowTakes, denClean, denData, ← Option.mem_def]; decide +kernel

/-- Save areas in the own Den and in hub SRAM: the words may be stored to, and twelve clean words load. -/
theorem test_save_areas_anywhere :
    (∀ g ∈ [0x6FFFFFFF7F80, 0x500000600000], let s := trio sup0 (withG sup0 [(1, g)])
      takes s .badger ∧ ∀ k ∈ s.chip.coresOf .badger, let x := s.chip.core k
        (x.g 1).toNat = g ∧ g < 2 ^ 48 ∧ g % 128 = 0 ∧ (∀ i < 12, preExc (envOfCore s .badger k) x (g + 8 * i) 8 true = none)
          ∧ windowTakes s .badger k 1 ∧ x.buffered + 12 ≤ 64
          ∧ ((envOfCore s .badger k).denOff g = if g = 0x500000600000 then none else some 0x7F80))
    ∧ (let g := 0x6FFFFFFF7F80
       let s := trio sup0 { sup0 with saveHead := g }
       let s := { s with mem := block [144, 145] 0x7F80 [128, 0, 1, 2, 3, 4, 5, 6, 7, 8, 9, 10] };
       takes s .badger ∧ ∀ k ∈ s.chip.coresOf .badger, let x := s.chip.core k
         let e := envOfCore s .badger k
         x.saveHead = g ∧ (∀ i < 12, preExc e x (g + 8 * i) 8 false = none) ∧ 0 / 16 % 16 = x.key
           ∧ loadBytes e (fetched s .badger k) s.mem (g + 8) 8 true = .value 0 [] []
           ∧ saveLoads e { fetched s .badger k with dcache := [] } s.mem ([0, 2, 3, 4, 5, 6, 7, 8, 9, 10, 11].map fun i => g + 8 * i) [] []
             = (.value 0 [] [], [128, 1, 2, 3, 4, 5, 6, 7, 8, 9, 10].map wNat)) := by
  simp only [takes, windowTakes, ← Option.mem_def]; decide +kernel

/-- Groups of every size in the own Den and in scratch: their words may be reached, and load; a base that is not a multiple of 16. -/
theorem test_vector_groups : ∀ sz ∈ [0#2, 1#2, 2#2], ∀ p ∈ [0x6FFFFFFE7F80, 0x400000001000], let m := 2 ^ sz.toNat
    let s := solo (withG user0 [(1, p), (2, p + 8), (15, 0x6FFFFFFE7000)])
    let s := { s with mem := block [0] 0x7F80 (List.range 16) }
    takes s (.fox 0) ∧ (s.chip.clu 0).resync = none ∧ sz ≠ 3#2 ∧ ∀ k ∈ s.chip.coresOf (.fox 0), let x := s.chip.core k
      let e := envOfCore s (.fox 0) k
      k = 0 ∧ (x.g 1).toNat = p ∧ p % 16 = 0 ∧ (x.g 2).toNat % 16 ≠ 0 ∧ windowTakes s (.fox 0) k m ∧ canEnter s (.fox 0) k
        ∧ (∀ w ∈ [true, false], ∀ i < 2 * m, privExc e x (p + 8 * i) 8 w = none ∧ privExc e x (p + 8 + 8 * i) 8 w = none)
        ∧ (∀ i < m, preExc e x (p + 16 * i) 16 true = none)
        ∧ (p = 0x400000001000 ∨ loadGroup e (fetched s (.fox 0) k) s.mem p m = (.value 0 [] [], List.range (2 * m))) := by
  simp only [takes, windowTakes, canEnter, ← Option.mem_def]; decide +kernel

/-- RSP at both ends of the stack, a value on each side of it, and one that is not a multiple of 8. -/
theorem test_return_stack_values :
    (∀ v ∈ [0x8000, 0x8800], let s := trio (withG sup0 [(1, v)]) sup0
      takes s (.fox 0) ∧ ∀ k ∈ s.chip.coresOf (.fox 0), let x := s.chip.core k
        x.sup = true ∧ v % 8 = 0 ∧ (x.g 1).toNat = v ∧ x.stackBase ≤ v ∧ v ≤ x.stackBase + 0x800)
    ∧ (∀ v ∈ [0x7FF8, 0x8808, 0x8004], let s := trio (withG sup0 [(1, v), (15, 0x6FFFFFFE8000)]) sup0
      takes s (.fox 0) ∧ ∀ k ∈ s.chip.coresOf (.fox 0), let x := s.chip.core k
        canEnter s (.fox 0) k ∧ (v % 8 ≠ 0 ∨ v < x.stackBase ∨ x.stackBase + 0x800 < v)) := by
  simp only [takes, canEnter, ← Option.mem_def]; decide +kernel

/-- Contexts created and ended: Fox has eight, Badger four (R278). -/
theorem test_context_operands : ∀ w ∈ [(Tgt.fox 0, 1), (.fox 0, 7), (.badger, 3)], ∀ op ∈ [0x100, 0x200],
    let x := withG sup0 [(1, op + w.2)]
    let s := trio x x
    takes s w.1 ∧ ∀ k ∈ s.chip.coresOf w.1, let x := s.chip.core k
      x.sup = true ∧ w.2 < (envOfCore s w.1 k).nctx ∧ w.2 ≠ x.cur ∧ (x.g 1).toNat = op + w.2 ∧ ∀ r ∈ x.erec, r.ctx ≠ w.2 := by
  simp only [takes]; decide +kernel

/-- A spill, and a load of the context that is wanted, run in the background. -/
theorem test_background_context_traffic :
    (∀ k ∈ (trio { sup0 with spill := some ⟨2, false⟩ } sup0).chip.coresOf (.fox 0),
        ((trio { sup0 with spill := some ⟨2, false⟩ } sup0).chip.core k).spill = some ⟨2, false⟩)
    ∧ ∀ k ∈ (trio { sup0 with spill := some ⟨2, true⟩, pendCur := some 2 } sup0).chip.coresOf (.fox 0),
        ((trio { sup0 with spill := some ⟨2, true⟩, pendCur := some 2 } sup0).chip.core k).spill = some ⟨2, true⟩
          ∧ ((trio { sup0 with spill := some ⟨2, true⟩, pendCur := some 2 } sup0).chip.core k).pendCur = some 2 := by decide +kernel

/-! ## Redundancy and streams -/

/-- A core with a closed window of one buffered store and signature `v`. -/
def closedAt (v : Nat) : Core :=
  { sup0 with closed := some ⟨{ sig := v, words := 128, stores := 1, buf := [⟨0x400000001000, 8, 7, true, none⟩] }, 1, 2, true⟩ }

theorem test_windows_agree : let s := trio (closedAt 9) sup0
    beatPasses s 0 none ∧ beatPasses (withRegs s [rst (R.OWL_STAT 0) F.OWL_STAT_HB_PHASE 4095]) 0 (some 0#64)
      ∧ s.chip.members 0 ≠ [] ∧ s.chip.fld (R.OWL_INJ 0) F.OWL_INJ_ARMED = 0
      ∧ ∀ k ∈ s.chip.members 0, (s.chip.core (3 * 0 + k)).closed.isSome = true ∧ (s.chip.core (3 * 0 + k)).decided 0 = (9, 1, 2) := by
  simp only [beatPasses]; decide +kernel

/-- Cluster 0 where core 2's signature differs. -/
def oddState : State := let s := trio (closedAt 9) sup0; { s with chip := s.chip.setCore 2 (closedAt 8) }

theorem test_one_core_differs : let s := oddState
    let cs := fun k : Nat => s.chip.core (3 * 0 + k)
    s.chip.members 0 = [0, 1, 2] ∧ s.chip.fld (R.OWL_INJ 0) F.OWL_INJ_ARMED = 0 ∧ s.chip.faults.halted = false
      ∧ s.chip.thirdResync 0 2 = false ∧ (s.chip.clu 0).resync = none ∧ (∀ k < 3, (cs k).closed.isSome = true)
      ∧ (∀ k : Fin 3, k ≠ 2 → (cs k.val).decided 0 = (cs 0).decided 0) ∧ (cs 2).decided 0 ≠ (cs 0).decided 0 := by
  decide +kernel

theorem test_requests_agree : let s := trio sup0 sup0
    let r : Request := ⟨0x400000001000, 8, false, 0⟩
    s.chip.members 0 ≠ [] ∧ s.chip.fld (R.OWL_INJ 0) F.OWL_INJ_ARMED = 0
      ∧ ∀ k ∈ s.chip.members 0, reqOf [(0, r), (1, r), (2, r)] k none = some r := by decide +kernel

/-- Cluster 0 with its own record. -/
def withClu (s : State) (x : Cluster) : State := { s with chip := s.chip.setClu 0 x }

theorem test_resync_runs : ∀ r ∈ [Resync.mk 2 0 false false, ⟨0, 2, true, true⟩], let s := withClu (trio sup0 sup0) { resync := some r }
    (s.chip.clu 0).resync = some r ∧ r.odd < 3 ∧ r.donor < 3 ∧ r.odd ≠ r.donor ∧ Memory.wf s.mem = true
      ∧ ∀ k ∈ s.chip.members 0, (s.chip.core (3 * 0 + k)).released = [] := by decide +kernel

/-- A stop in its self-test after one counted stop, and one that awaits its restart. -/
theorem test_stopped_cluster :
    (let s := withClu State.reset { stop := .selfTest, stopHist := [5], stopAt := 7 };
      (s.chip.clu 0).stop = .selfTest ∧ s.chip.cluFenced 0 = false ∧ s.chip.faults.halted = false
        ∧ recentCount (s.chip.clu 0).stopAt (s.chip.clu 0).stopHist < 2)
    ∧ (let s := withClu State.reset { stop := .awaitRestart };
      (s.chip.clu 0).stop = .awaitRestart ∧ s.chip.badger.restarting = false) := by decide +kernel

/-- A copy stream of FP64 elements from 0x400000002000 to 0x400000001000 by standard chain 0, in its registers' form. -/
def copyDesc (n : Nat) : List Word :=
  [wNat (n - 1), wNat (2 ^ 48 + 0x400000002000), 0#64, 0#64, wNat (2 ^ 48 + 0x400000001000), 0#64, 0#64, 0#64]

/-- Partition 0 of die 0 in mode `m`, cluster 0 with the standard copy entry, streams allowed. -/
def streaming (m : Nat) (x : Core) : State :=
  let s := trio x sup0
  let s := withRegs s [rst (R.PAR_STATUS 0) F.PAR_STATUS_MODE m, (R.AGU_CTRL 0, 1#64),
    (R.PAR_CTRL 0, wNat (fat F.PAR_CTRL_EN 1 + fat F.PAR_CTRL_DIES 1))]
  { s with chip := s.chip.setChainEntry 0 0 ⟨(stdEntries.headD (0#64, [])).1, (stdEntries.headD (0#64, [])).2, []⟩ }

/-- The first and the last scratch word that every master may reach, as a released store. -/
theorem test_released_stores : ∀ off ∈ [0, 0x5EFFFF8],
    let b : BufStore := ⟨0x400000000000 + off, 8, 7, true, none⟩
    let s := streaming 3 { sup0 with released := [b] }
    s.chip.coresOf (.fox 0) ≠ [] ∧ (∀ k ∈ s.chip.coresOf (.fox 0), (s.chip.core k).released = b :: [])
      ∧ s.chip.fld (R.OWL_INJ 0) F.OWL_INJ_ARMED = 0 ∧ b.addr % 8 = 0 ∧ b.job = none ∧ (b.addr + b.size - 1) / 256 = b.addr / 256
      ∧ plain s.chip (0x400000000000 + off) (.scratch 0 off)
      ∧ s.chip.route ((envOfCore s (.fox 0) (leadCore s (.fox 0))).who b.sup) b.addr true
          = .word (0x400000000000 + off) (off / 8) (.scratch 0 off) := by simp only [plain]; decide +kernel

/-- A released store of two pieces, of which one or both are lost. -/
theorem test_split_store_is_lost : let b : BufStore := ⟨0x4000000000FC, 8, 7, true, none⟩
    let s := streaming 3 { sup0 with released := [b] }
    s.chip.coresOf (.fox 0) ≠ [] ∧ (∀ k ∈ s.chip.coresOf (.fox 0), (s.chip.core k).released = b :: [])
      ∧ (b.addr + b.size - 1) / 256 ≠ b.addr / 256 ∧ (3#2).getLsbD 0 = true ∧ (3#2).getLsbD 1 = true := by decide +kernel

theorem test_issue_is_accepted : ∀ z ∈ [({ used := true } : Slot), { used := true, gen := 1023, state := .retired }],
    let d : HeldDesc := ⟨copyDesc 1, 0⟩
    let s := streaming 3 { sup0 with issue := some d }
    let s := { s with chip := s.chip.setSlot 0 0 z }
    takes s (.fox 0) ∧ (∀ k ∈ s.chip.coresOf (.fox 0), (s.chip.core k).issue = some d ∧ (s.chip.core k).released = []
        ∧ (s.chip.core k).precise = false ∧ (s.chip.core k).pwait = none)
      ∧ (s.chip.clu 0).haltAt = none ∧ s.chip.refusal 0 (s.chip.viewOf 0 d.words) = none ∧ s.chip.freeIssue 0 = some 0
      ∧ (s.chip.slot 0 0).unconsumed = false ∧ (s.chip.slot 0 0).used = true := by
  simp only [takes]; decide +kernel

/-- The handles with the lowest and the highest slot and generation. -/
theorem test_retired_streams : ∀ h ∈ [0, 65535],
    let s := trio (withG sup0 [(1, h)]) sup0
    let s := { s with chip := s.chip.setSlot 0 (h % 64) { used := true, gen := h / 64, state := .retired } }
    takes s (.fox 0) ∧ (∀ k ∈ s.chip.coresOf (.fox 0), (s.chip.core k).mustClose (envOfCore s (.fox 0) k) = false
        ∧ ((s.chip.core k).g 1).toNat = h) ∧ (s.chip.clu 0).traps = [] ∧ (s.chip.clu 0).haltAt = none
      ∧ (s.chip.slot 0 (h % 64)).used = true ∧ (s.chip.slot 0 (h % 64)).gen = h / 64
      ∧ (s.chip.slot 0 (h % 64)).state = .retired ∧ ∀ e ∈ (s.chip.clu 0).slots, e.2.inFlight = false ∧ e.2.unconsumed = false := by
  simp only [takes]; decide +kernel

/-- A slot that holds a copy stream of `n` elements, dealt to unit 0. -/
def copySlot (n : Nat) (st : SlotState) (order : Nat) : Slot :=
  { used := true, state := st, order := order, desc := copyDesc n, hdr := (stdEntries.headD (0#64, [])).1,
    nodes := (stdEntries.headD (0#64, [])).2, deal := [0] }

/-- An older stream that writes what the waiting one reads, and one that does not. -/
theorem test_streams_wait : ∀ w ∈ [(0x400000002000, true), (0x400000003000, false)],
    let x := { copySlot 8 .waiting 1 with reads := [⟨0x400000002000, 0x400000002040⟩] }
    let y := { copySlot 8 .running 0 with writes := [⟨w.1, w.1 + 64⟩] }
    let s := { State.reset with chip := (State.reset.chip.setSlot 0 0 x).setSlot 0 1 y }
    (s.chip.slot 0 0).state = .waiting ∧ ∀ e ∈ (s.chip.clu 0).slots, e.1 = 1 → (s.chip.clu 0).waitsOn e.2 (s.chip.slot 0 0) = w.2 := by
  decide +kernel

/-- A block of one clean element is ready, and one whose stream has not started is not. -/
theorem test_blocks_are_ready :
    let s := streaming 1 sup0
    let s := { s with chip := s.chip.setSlot 0 0 (copySlot 1 .running 0), mem := word [] 0x400000002000 0x400 7 }
    let x := s.chip.slot 0 0
    s.chip.blockReady 0 0 0 = true ∧ (streaming 1 sup0).chip.blockReady 0 0 0 = false
      ∧ let r := readElems s.chip s.mem (tileWho s.chip 0 ((s.chip.unitTiles 0 (x.unitOf 0)).headD 0 / 2)) x.view
          (min 512 (x.view.n - 512 * 0)) (512 * 0) {}
        r.2.halt = none ∧ r.2.hits.all (fun h => h.out == .clean && (s.chip.bypass h.loc).isNone) = true := by
  decide +kernel

/-- An open window of tile 0, and equal closed windows of pair 0 with one word of scratch. -/
theorem test_commit_windows :
    let e : ResWord := ⟨0, 0x400000001000, 7, 8, codeCheck 7 0⟩
    let a : CmtWin := ⟨0, 0, 0, 0, [e], 5, 0, true, 0⟩
    let s := streaming 1 sup0
    let s := { s with chip := ((s.chip.setSlot 0 0 (copySlot 1 .running 0)).setTile 0 ⟨[a]⟩).setTile 1 ⟨[a]⟩ }
    isSafe (s.chip.cluMode 0) = true ∧ s.chip.fld (R.OWL_INJ 0) F.OWL_INJ_ARMED = 0
      ∧ (s.chip.setTile 0 ⟨[{ a with closed := false }]⟩).tile 0 = ⟨{ a with closed := false } :: []⟩
      ∧ (s.chip.tile 0).wins = [a] ∧ (s.chip.tile 1).wins = [a] ∧ a.closed = true ∧ a.inj = 0
      ∧ (s.chip.slot 0 a.slot).state = .running ∧ (s.chip.slot 0 a.slot).inOrder a = true
      ∧ (s.chip.slot 0 a.slot).view.index (3 + a.dest) = none ∧ plain s.chip 0x400000001000 (.scratch 0 0x1000)
      ∧ e.chk = codeCheck e.val (cmtEntry a.dest a.half 0) ∧ s.chip.fld (R.CMT_STAT 0) F.CMT_STAT_HB_PHASE ≠ 4095 ∧ beatOk 0 (some 0#64) = true
      ∧ s.chip.route (tileWho s.chip 0 0) e.addr true = .word 0x400000001000 0x200 (.scratch 0 0x1000) := by
  simp only [plain]; decide +kernel

/-- A stream that may retire, an imprecise one with a fault while AGU_SFLT is clear, and a PRECISE one whose
elements before the fault are written. -/
theorem test_streams_end :
    (let x := { copySlot 1 .running 0 with taken := [0], done := [0] };
      x.state = .running ∧ x.cause = 0 ∧ x.fault = none ∧ x.view.blocks ≤ x.taken.length ∧ x.written = true ∧ x.flagsE = x.flagsO
        ∧ x.trapE = x.trapO)
    ∧ (∀ f ∈ [SFault.mk 0 0x21 0 0, ⟨511, 63, 4, 2 ^ 48 - 1⟩], let x := { copySlot 1 .running 0 with fault := some f };
      x.state = .running ∧ x.cause = 0 ∧ x.fault = some f ∧ x.view.precise = false
        ∧ State.reset.chip.flag (R.AGU_SFLT_ADDR 0) F.AGU_SFLT_ADDR_VALID = false ∧ f.cause < 64 ∧ f.addr < 2 ^ 48 ∧ f.cause ≠ 0)
    ∧ (∀ f ∈ [SFault.mk 0 0x21 0 0, ⟨511, 0x24, 4, 0⟩],
      let x := { copySlot 512 .running 0 with
        desc := (copyDesc 512).set 0 (wNat (2 ^ 50 + 511)), fault := some f, taken := [0], done := [0] };
      let s := { State.reset with chip := State.reset.chip.setSlot 0 0 x };
      s.chip.slot 0 0 = x ∧ x.cause = 0 ∧ x.fault = some f ∧ x.view.precise = true ∧ x.written = true ∧ 0x21 ≤ f.cause ∧ f.cause ≤ 0x24
        ∧ x.flagsE = x.flagsO ∧ x.trapE = x.trapO ∧ (s.chip.clu 0).waiting = [])
    ∧ State.reset.chip.fld (R.OWL_INJ 0) F.OWL_INJ_ARMED = 0 := by decide +kernel

/-! ## Matrices, stored words and the scrubbers -/

/-- A module whose partition 0 holds dies 0 and 1 and most shares, its stacks in the normal state. -/
def twoDies : State := withRegs State.reset [(R.PAR_CTRL 0, wNat (fat F.PAR_CTRL_EN 1 + fat F.PAR_CTRL_DIES 3 + fat F.PAR_CTRL_BW_SHARE 31)),
  rst (R.MEM_STAT 0) F.MEM_STAT_PSTATE 0, rst (R.MEM_STAT 1) F.MEM_STAT_PSTATE 0]

/-- Pieces that wait at the matrices of their dies. -/
def queued (s : State) (l : List Piece) : State :=
  { s with chip := { s.chip with fabric := { s.chip.fabric with out := l.map fun p => { piece := p, place := some (p.die, p.port) } } } }

/-- Two masters of die 0 at one scratch port, or at one channel of the link to die 1, whole or fenced; Badger and a DMA channel at one port of H. -/
theorem test_pieces_are_presented : ∀ w ∈ [(0, 0x400000000000, 0, 0), (0, 0x400010000000, 0x70, 0), (0, 0x400010000000, 0x70, 1), (4, 0x500000800000, 0x7E, 0)],
    let s := withRegs twoDies [rst (R.FAB_LINK_STAT 0 0) F.FAB_LINK_STAT_FENCED w.2.2.2]
    let s := queued s ([0, 3].map fun k => { piece0 with die := w.1, port := k, addr := if w.1 = 4 then denBase 0 + 8 * k else w.2.1 })
    let offers := s.chip.presented w.1 w.2.2.1
    (w.1 = 4 ∨ offers.map Offer.port = [0, 3]) ∧ (w.1 = 0 ∨ s.chip.presented w.1 0x7E ++ s.chip.presented w.1 0x10 ≠ [])
      ∧ (∀ p ∈ offers, p.cred = .go ∧ p.port < 128) ∧ s.chip.shareFilter w.1 w.2.2.1 offers = offers
      ∧ twoDies.chip.presented w.1 w.2.2.1 = [] := by decide +kernel

/-- Bursts of a tile, of a Fox port, of a DMA channel and of Badger may issue; a slot number is free. -/
theorem test_bursts_may_issue : ∀ p ∈ [piece0, { piece0 with port := 0x60 }, { piece0 with die := 4, port := 1, addr := 0x500000800FF8 },
      { piece0 with die := 4, addr := 0x4000000000F8, nwords := 33 }],
    p.wf = true ∧ twoDies.chip.mayIssue p = true ∧ (∀ o ∈ twoDies.chip.fabric.out, sameMaster o.piece p = true → o.piece.id ≠ 127) := by
  decide +kernel

/-- A partition with 31 shares and a DMA piece at a hub SRAM port, 32 cycles into a window. -/
theorem test_share_is_owed : let s := queued twoDies [{ piece0 with die := 4, port := 1, addr := 0x500000800000 }]
    let s := { s with chip := { s.chip with now := 20 } }
    let offers := s.chip.presented 4 0
    sharedPort 4 0 = true ∧ (∀ p ∈ offers, p.cred = .go) ∧ (offers.map fun p => (s.chip.fabric.out[p.idx]?).bind s.chip.tagOf) = [some 0]
      ∧ 1024 - s.chip.fabCycleH % 1024 ≤ (([0].map (s.chip.shareOwed 0)).sum) ∧ 0 < s.chip.shareOwed 0 0 := by decide +kernel

/-- A granted piece behind one that still waits and one granted later at its target port: at a clean word, at the default target, and answered already. -/
theorem test_pieces_are_next : let s := { twoDies with mem := word [] 0x400000000000 0 9 }
    let w := { pieceWho s.chip piece0 with granted := true }
    let o : OutPiece := { piece := piece0, grants := [(0, 0, 0)], stamp := 4 }
    let pre : List OutPiece := [{ piece := { piece0 with id := 1 }, place := some (0, 0) }]
    let post : List OutPiece := [{ piece := { piece0 with port := 9 }, grants := [(0, 9, 0)], stamp := 5 }]
    (∀ x ∈ pre, ¬ (x.piece.die = o.piece.die ∧ x.piece.port = o.piece.port ∧ x.piece.id = o.piece.id))
      ∧ (∀ x ∈ pre ++ post, x.due = true → x.stamp ≠ o.stamp ∧ (x.target = o.target → o.stamp < x.stamp))
      ∧ o.due = true ∧ o.poisoned = false ∧ s.chip.pieceSilent o = false ∧ o.target = some (0, 0)
      ∧ ({ o with grants := [(0, 0, 0x7F)] } : OutPiece).target = some (0, 0x7F) ∧ ({ o with answer := some (0, [5#64]) } : OutPiece).due = false
      ∧ ({ o with place := some (0, 0), grants := [] } : OutPiece).due = false
      ∧ (withRegs twoDies [rst (R.MEM_STAT 0) F.MEM_STAT_PSTATE 1]).chip.pieceSilent { o with piece := { piece0 with addr := 0 } } = true
      ∧ s.chip.route w 0x400000000000 false = .word 0x400000000000 0 (.scratch 0 0) ∧ plain s.chip 0x400000000000 (.scratch 0 0)
      ∧ s.chip.route w 0x400000000000 true = .word 0x400000000000 0 (.scratch 0 0)
      ∧ memChk s.mem 0x400000000000 = some (codeCheck (memWord s.mem 0x400000000000) 0)
      ∧ s.chip.route w 0x400020000000 false = .deflt 0 ∧ s.chip.route w 0x400020000000 true = .deflt 0 := by simp only [plain]; decide +kernel

/-- A hop of a link with no failed replay, and one with two. -/
theorem test_hops_replay : ∀ n ∈ [0, 1, 2], let h : Hop := { hop0 with code := 4, unit := 1, ch := 2 }
    let s := { State.reset with chip := { State.reset.chip with fabric := { hopTries := [(hopNo h, n)] } } }
    mget 0 s.chip.fabric.hopTries (hopNo h) = n ∧ 1 ≤ h.code ∧ h.code < 32 ∧ h.die < 4 ∧ h.unit < 3 ∧ h.ch < 3 ∧ h.jobs = []
      ∧ mget? s.chip.faults.hopExh (hopNo h) = none ∧ s.chip.consequential (hopDet 0x02 h 3) = false
      ∧ s.chip.faults.halted = false ∧ s.chip.fabric.out = [] ∧ s.chip.flag (R.FLT_STAT (hopPlace h).1) F.FLT_STAT_VALID = false := by
  decide +kernel

theorem test_links_lose_training : let s := State.reset
    s.chip.faults.halted = false ∧ (∀ k < 4, s.chip.partOf k = none) ∧ s.chip.fabric.out = []
      ∧ (∀ d < 4, ∀ e < 3, s.chip.flag (R.FAB_LINK_STAT d e) F.FAB_LINK_STAT_FENCED = false)
      ∧ s.chip.consequential ⟨0x41, linkInst 0, 0xF1FFFFF, 3, 0, [], 0, 0, false, false⟩ = false
      ∧ s.chip.consequential ⟨0x41, linkInst 3, 0x3F1FFFFF, 3, 2 * 2 ^ 8, [], 8, 0, false, false⟩ = false
      ∧ (∀ j < 3, ∀ k ∈ chanKeys 3 2 j, k ∉ s.chip.fabric.untrained)
      ∧ (let f : Fabric := { untrained := [hopKey 3 2 1] }; ∃ k ∈ chanKeys 3 2 1, k ∈ f.untrained) := by decide +kernel

/-- The first and the last granule of a domain, with their channels. -/
theorem test_granules_have_channels : ∀ g ∈ [0, 767557631], let s := twoDies
    g < 767557632 ∧ s.chip.stackOff 0 (g % 61) = false ∧ s.chip.physOf 0 (g % 61) = some (g % 61) ∧ s.chip.copyOf 0 (g % 61) = none
      ∧ s.chip.bypass (.dram 0 (8 * foldOf (g % 61) (g / 61) 7)) = none
      ∧ s.chip.fld (R.RES_PCH 0 (g % 61)) F.RES_PCH_LOGICAL = g % 61 := by decide +kernel

/-- A granule of eight clean words in channel 0. -/
def cleanGranule : Memory := (List.range 8).foldl (fun m i => word m (dramKey 0 0 0 (8 * i)) (foldOf 0 0 i) (i + 1)) []

theorem test_granule_reads_clean : let s := { twoDies with mem := cleanGranule }
    ∀ i < 8, s.chip.bypass (.dram 0 (8 * foldOf 0 0 i)) = none
      ∧ memChk s.mem (dramKey 0 0 0 (8 * i)) = some (codeCheck (memWord s.mem (dramKey 0 0 0 (8 * i))) (foldOf 0 0 i)) := by
  decide +kernel

/-- Word slots of the first and the last scratch word. -/
theorem test_scratch_slots : ∀ off ∈ [0, 0x5FFFFF8], off % 8 = 0 ∧ off < 0x6000000
    ∧ plain State.reset.chip (0x400000000000 + 3 * 0x10000000 + off) (.scratch 3 off)
    ∧ mget? [(2 * slotNo 3 off, 4)] (2 * slotNo 3 off) = some 4 := by simp only [plain]; decide +kernel

/-- A stack in its normal state, and both ends of the temperatures below the throttle threshold. -/
theorem test_stack_states : ∀ st < 8, let a := R.MEM_STAT st
    let s := withRegs State.reset [rst a F.MEM_STAT_PSTATE 0]
    s.chip.fld a F.MEM_STAT_PSTATE ≠ 2 ∧ s.chip.flag a F.MEM_STAT_THROTTLE = false
      ∧ s.chip.flag a F.MEM_STAT_REF2X = false ∧ (-128 : Int) ≤ 94 ∧ (94 : Int) < 95 := by decide +kernel

/-- A scrubber that runs on the clean granule. -/
theorem test_hedgehog_runs : let s := withRegs twoDies [rst (R.HOG_CTRL 0) F.HOG_CTRL_DRAM_EN 1, rst (R.MEM_STAT 0) F.MEM_STAT_PSTATE 0,
      rst (R.MEM_STAT 1) F.MEM_STAT_PSTATE 0]
    let s := { s with mem := cleanGranule }
    s.chip.hogRuns 0 = true ∧ (s.chip.dom 0).rctDue = [] ∧ s.chip.flag (R.HOG_STAT 0) F.HOG_STAT_IN_SCRATCH = false
      ∧ s.chip.flag (R.HOG_CTRL 0) F.HOG_CTRL_DRAM_EN = true ∧ s.chip.lapPos 0 + 1 < 767557632 ∧ s.chip.physOf 0 0 = some 0
      ∧ ∀ i < 8, s.chip.bypass (.dram 0 (0 * 64 + 8 * i)) = none ∧ let k := dramKey 0 0 (0 / 61) (8 * i)
          memChk s.mem k = some (codeCheck (memWord s.mem k) ((0 * 64 + 8 * i) / 8)) := by decide +kernel

/-- One bit of a data word in error: the lowest and the highest. -/
theorem test_word_in_error : ∀ i ∈ [0, 63], let m := memPutWord [] 0 (nxor 7 (2 ^ i)) (codeCheck 7 0)
    memWord m 0 = nxor 7 (2 ^ i) ∧ memChk m 0 = some (codeCheck 7 0) ∧ State.reset.chip.copyOf 0 (chanOf 0) = none := by decide +kernel

/-- A lap that has just reached its limit. -/
theorem test_lap_is_due : let n := max 1 (State.reset.chip.fld (R.HOG_CTRL 0) F.HOG_CTRL_LAP_LIMIT) * 60000000000
    let s0 := withRegs State.reset [rst (R.HOG_CTRL 0) F.HOG_CTRL_DRAM_EN 1]
    let s := { s0 with chip := { s0.chip with now := n } }
    (s.chip.dom 0).lapLate = false ∧ s.chip.flag (R.HOG_CTRL 0) F.HOG_CTRL_DRAM_EN = true
      ∧ n ≤ s.chip.now - (s.chip.dom 0).lapStart := by decide +kernel

/-- A wipe that runs; a raw word that the window grants, one that it refuses; a word with check bits. -/
theorem test_wipe_and_raw_window :
    (withRegs State.reset [rst (R.SCR_SEC_STAT 0) F.SCR_SEC_STAT_WIPING 1]).chip.flag (R.SCR_SEC_STAT 0) F.SCR_SEC_STAT_WIPING = true
    ∧ State.reset.chip.rawAt = none ∧ (∀ e ∈ [(0, false), (47, false), (48, true)], ∀ wr ∈ [0, 1],
        let w := wNat (fat F.SCR_RAW_CTRL_GO 1 + fat F.SCR_RAW_CTRL_EN 1 + fat F.SCR_RAW_CTRL_WRITE wr + fat F.SCR_RAW_CTRL_SUBBANK e.1)
        let c := State.reset.chip.writeMasked (R.SCR_RAW_CTRL 0) w
        let ctl := c.reg (R.SCR_RAW_CTRL 0)
        bit w.toNat 0 = true ∧ fget ctl F.SCR_RAW_CTRL_EN = 1 ∧ fget ctl F.SCR_RAW_CTRL_WRITE = wr ∧ c.rawRefused 0 ctl = e.2)
    ∧ memChk (word [] 0x400000000000 0 5) 0x400000000000 = some (codeCheck 5 0) := by decide +kernel

/-! ## Mailboxes and the Kongerax link -/

/-- A state whose chain `ch` mailbox is `b`. -/
def withMbx (s : State) (ch : Nat) (b : Mbx) : State := { s with chip := s.chip.setMbx ch b }

/-- A CMD_STATUS header without parameters, with its CSEQ at either end. -/
theorem test_command_words : ∀ q ∈ [0, 65535],
    let w0 := wNat (0xC * 2 ^ 60 + 2 * 2 ^ 52 + 2 ^ 49 + 5 * 2 ^ 32 + q * 2 ^ 16)
    let b : Mbx := { accept := true, partialWords := [w0], rseq := 65535 }
    b.accept = true ∧ b.framing = false ∧ (withMbx State.reset 0 b).chip.mbxFree 0 ≠ 0 ∧ b.rseq < 65536 ∧ b.early = []
      ∧ State.reset.chip.queues.waiting = [] ∧ b.judge w0 0#64 = some true
      ∧ (cmdSpec (bits w0.toNat 59 52)).isSome = true ∧ bits w0.toNat 63 60 = 0xC ∧ bits (0#64).toNat 63 60 ≠ 0xC
      ∧ bit (1#64).toNat 0 = true
      ∧ (let d := { b with partialWords := [w0, 3#64], history := [⟨q, 2, 0, true, none⟩] }
         d.partialWords = w0 :: 3#64 :: [] ∧ d.partialDup = false) := by
  decide +kernel

/-- A response of one word and one of two; an event word; a NOTIFY that is due at once and one due after 10 us. -/
theorem test_words_are_posted : ∀ l ∈ [[[1#64]], [[1#64, 2#64], [3#64]]],
    let b : Mbx := { rspQ := l, evtQ := [7#64], notify := true, lastNotify := some 5 }
    let s := withRegs (withMbx State.reset 0 b) [(R.LNK_ADDR 0, wNat (64 + 1))]
    let s := { s with chip := { s.chip with now := 10005 } }
    (s.chip.mbx 0).rspQ = (1#64 :: l.head!.tail) :: l.tail ∧ (s.chip.mbx 0).mid = false ∧ (s.chip.mbx 0).evtQ = 7#64 :: []
      ∧ (s.chip.mbx 0).evtQ.length ≤ 4096 ∧ (s.chip.mbx 0).notify = true ∧ (s.chip.mbx 0).notifyEn = true ∧ s.chip.addr 0 ≠ 0x3F
      ∧ ∀ t ∈ (s.chip.mbx 0).lastNotify, t + 10000 ≤ s.chip.now := by decide +kernel

/-- Port 0 up, with 32 credits and the next numbers `e`. -/
def upPort (p e : Nat) (x : Port) : State :=
  let c := State.reset.chip.setPortState p 4
  let c := ((c.setFld (R.LNK_STAT p) F.LNK_STAT_RX_EXPECT e).setFld (R.LNK_STAT p) F.LNK_STAT_CREDITS 32).setPort p x
  { State.reset with chip := c.setAddr (p / 2) 1 }

/-- A frame with its CRC: in sequence for the module, a LINK frame, and one with a wrong CRC. -/
theorem test_frames_arrive : ∀ e ∈ [0, 4095], let s := upPort 0 e {}
    let f := { frame0 with dst := 1, h1 := 0#64, seq := e }
    let g := { f with crc := frameCrc f }
    let l := { f with typ := 0 }
    let l := { l with crc := frameCrc l }
    s.chip.portUp 0 = true ∧ g.crc = frameCrc g ∧ g.typ ≠ 0 ∧ g.seq = s.chip.lnk 0 F.LNK_STAT_RX_EXPECT ∧ g.nak = false
      ∧ (s.chip.port 0).retry = [] ∧ (s.chip.port 0).held = [] ∧ (s.chip.port 0).taken = [] ∧ s.chip.occupied 0 < 32 ∧ (s.chip.routeAct 0 g == .discard) = false
      ∧ l.typ = 0 ∧ l.crc = frameCrc l ∧ l.nak = false ∧ f.crc ≠ frameCrc f := by decide +kernel

/-- A frame that waits while the period has room for it exactly. -/
theorem test_frame_may_leave : let o : OutFrame := ⟨frame0, true, true⟩
    let s := upPort 0 4095 { waiting := [o], blocks := 880 }
    s.chip.portUp 0 = true ∧ 0 < s.chip.lnk 0 F.LNK_STAT_CREDITS ∧ (s.chip.port 0).retry = [] ∧ (s.chip.port 0).waiting = o :: []
      ∧ s.chip.sendable 0 o = true ∧ (s.chip.port 0).period = s.chip.periodOf 0
      ∧ (s.chip.port 0).blocks + frameBlocks o.frame ≤ 884 := by decide +kernel

/-- A frame due again, one whose acknowledgement is overdue, and a LINK frame that is due. -/
theorem test_frames_are_due : ∀ n ∈ [1, 7], let e : SentFrame := ⟨frame0, n, true⟩
    let r : SentFrame := ⟨{ frame0 with seq := 1 }, 1, false⟩
    let s := upPort 0 2 { retry := [e, r], ackDue := true }
    let s := { s with chip := { s.chip with now := 5243 } }
    s.chip.portUp 0 = true ∧ 0 < s.chip.lnk 0 F.LNK_STAT_CREDITS ∧ (s.chip.port 0).retry = e :: [r] ∧ e.due = true
      ∧ (∀ k ∈ [r], k.frame.seq ≠ e.frame.seq) ∧ s.chip.blocksPassed (s.chip.port 0).lastAck 2048 = true ∧ e.sends < 8
      ∧ s.chip.linkDue 0 = true := by decide +kernel

/-- An alignment block that is due at its first block time, and one that is not; two states of the scrambler. -/
theorem test_alignment_is_due :
    (({ State.reset.chip with now := 41944 } : Chip).port 0).alignAt + 16384 ≤ blockTimes 41944 ∧ blockTimes 41943 < (State.reset.chip.port 0).alignAt + 16384
      ∧ State.reset.chip.powered = true ∧ 0 < 2 ^ 58 ∧ 2 ^ 58 - 1 < 2 ^ 58 := by decide +kernel

/-- R375: a first bit of 1 comes out 39 and 58 bits later as well. -/
theorem test_scrambler : scramble 0 1 = (1 + 2 ^ 39 + 2 ^ 58, descramble 0 (1 + 2 ^ 39 + 2 ^ 58) |>.2) ∧ (descramble 0 (1 + 2 ^ 39 + 2 ^ 58)).1 = 1 := by
  decide +kernel

/-- A request of each type for the module, an offer and a withdrawal of its address, and a frame for the module behind. -/
theorem test_requests_are_served :
    let f := { frame0 with dst := 1, h1 := wNat (R.PAR_STATUS 0) }
    let s := withMbx (upPort 0 0 { taken := [f], waiting := [⟨frame0, true, false⟩] }) 0 { accept := true }
    let s1 := withRegs s [rst (R.LNK_CTRL 1) F.LNK_CTRL_DOWN_EN 1, rst (R.LNK_STAT 1) F.LNK_STAT_UP 1]
    (s.chip.port 0).taken = [f] ∧ f.src = 0 ∧ f.dst = s.chip.addr 0 ∧ f.typ = 1 ∧ f.data = [] ∧ f.h1.toNat < 2 ^ 48
      ∧ (∃ d die i k, regDecode (f.h1.toNat % 2 ^ 48) = some (d, die, i, k) ∧ s.chip.powerRefused die d.block true = false
          ∧ d.block ≠ 0x04 ∧ d.block ≠ 0x02)
      ∧ (wNat (R.MBX_CMD_CTRL 0)).toNat = R.MBX_CMD_CTRL 0 ∧ (wNat (R.MBX_CMD_DATA 0)).toNat = R.MBX_CMD_DATA 0
      ∧ (s.chip.mbxWrite 0 (wNat (0xC * 2 ^ 60))).2 = true
      ∧ (wNat (2 * 2 ^ 48 + R.MBX_RSP_DATA 0)).toNat = 2 * 2 ^ 48 + R.MBX_RSP_DATA 0 ∧ (s.chip.mbx 0).rspQ = []
      ∧ (s.chip.setAddr 0 0x3F).addr 0 = 0x3F ∧ 1 ≤ bits (1#64).toNat 5 0 ∧ bits (0x3D#64).toNat 5 0 ≤ 0x3D
      ∧ s1.chip.downOk 0 = true ∧ s1.chip.addr 0 ≠ 2 ∧ s1.chip.addr 0 ≠ 0x3E := by
  refine ⟨by decide +kernel, by decide +kernel, by decide +kernel, by decide +kernel, by decide +kernel, by decide +kernel,
    ⟨_, _, _, _, rfl, by decide +kernel, by decide +kernel, by decide +kernel⟩, by decide +kernel⟩

/-- Ports in every state of their training, down for 1 s, and with DOWN_EN 0 and 1. -/
theorem test_ports_train : (∀ st < 4, let s := withRegs State.reset [rst (R.LNK_STAT 0) F.LNK_STAT_STATE st]
      s.chip.powered = true ∧ s.chip.portHeld 0 = false ∧ s.chip.lnk 0 F.LNK_STAT_STATE = st ∧ (s.chip.port 0).restarted = true)
    ∧ (∀ v ∈ [0xF, 0x7], ((withRegs State.reset [rst (R.LNK_STAT 0) F.LNK_STAT_LANE_LOCK v]).chip.lnk 0 F.LNK_STAT_LANE_LOCK == 0xF) = (v == 0xF))
    ∧ alignedOn [(0, 7), (16, 7), (3, 7), (9, 7)] [(16384, 8), (16400, 8), (16387, 8), (16393, 8)] = true
    ∧ alignedOn [(0, 7), (17, 7), (3, 7), (9, 7)] [(16384, 8), (16400, 8), (16387, 8), (16393, 8)] = false
    ∧ (let s := { State.reset with chip := { State.reset.chip.setPort 0 { downSince := some 0, restarted := false } with now := 1000000000 } };
      0 + 1000000000 ≤ s.chip.now ∧ (s.chip.port 0).downSince = some 0 ∧ s.chip.portUp 0 = false ∧ (s.chip.port 0).restarted = false)
    ∧ (∀ v ∈ [0, 1], (withRegs State.reset [rst (R.LNK_CTRL 1) F.LNK_CTRL_DOWN_EN v]).chip.portHeld 1 = (v == 0)) := by decide +kernel

/-! ## Commands -/

/-- Partition 0 on die 0 in mode `m`, owned by chain A, both mailboxes accepting. -/
def serve (m : Nat) : State :=
  let s := withRegs State.reset [rst (R.PAR_STATUS 0) F.PAR_STATUS_MODE m,
    (R.PAR_CTRL 0, wNat (fat F.PAR_CTRL_EN 1 + fat F.PAR_CTRL_DIES 1 + fat F.PAR_CTRL_MIN_PAIRS 1 + fat F.PAR_CTRL_MIN_CLUSTERS 1))]
  withMbx (withMbx s 0 { accept := true }) 1 { accept := true }

/-- A command from chain A with the highest tag and CSEQ. -/
def cmdOf (op : Nat) (mod : Bool) (l : List Nat) : Cmd := ⟨0, op, 0, mod, 65535, 65535, l.map wNat⟩

theorem test_refused_command : let c := cmdOf 0x20 false [0, 0]
    taken (serve 0) c 0x20 ∧ (serve 0).chip.earlyPassed c = false ∧ (serve 0).chip.check 0x20 c = some St.illegalState
      ∧ State.reset.chip.serving 0 = false := by simp only [taken, posts]; decide +kernel

/-- Three commands that wait: the module's turn follows partition 3's, partition 0's comes next; one that has to wait, and one that has not arrived. -/
theorem test_queues_take_turns :
    let c := cmdOf 0x21 false [5]
    let d := { cmdOf 0x21 false [6] with cseq := 7 }
    let e := cmdOf 0x01 true []
    let s := serve 3
    let x := { s.chip with queues := { waiting := [⟨c, 0, true, false⟩, ⟨d, 0, true, false⟩, ⟨e, 0, true, false⟩], last := 3 } }
    x.queues.last < 5 ∧ x.waits e = true ∧ (x.turn e).2 = true ∧ (x.turn c).2 = false ∧ x.waits d = true ∧ (x.turn d).2 = false
      ∧ ((x.turn e).1.turn c).2 = true ∧ x.waits { c with cseq := 9 } = false ∧ (x.turn { c with cseq := 9 }).2 = false
      ∧ x.serving 0 = true := by decide +kernel

/-- The forms of the queries, with the highest inst, and the entries at both ends of each table. -/
theorem test_queries_pass : ∀ e ∈ [cmdOf 0x01 true [], cmdOf 0x02 true [0], cmdOf 0x02 false [0], cmdOf 0x02 false [2 ^ 62],
      cmdOf 0x02 true [2 ^ 63 + 90], cmdOf 0x02 true [2 ^ 63], cmdOf 0x03 true [90], cmdOf 0x35 true [2 ^ 32], cmdOf 0x35 true [64 * 2 ^ 32 + 4032],
      cmdOf 0x35 true [2 ^ 32 + 2 ^ 40 + 63]], passes (serve 3) e e.op
    ∧ (e.op = 0x35 → let n := bits (e.p 0) 38 32
        1 ≤ n ∧ n ≤ 64 ∧ bits (e.p 0) 11 0 + n ≤ (if bit (e.p 0) 40 then 64 else 4096)) := by
  simp only [passes, taken, posts]; decide +kernel

/-- A clear of records that the sender may clear (the highest is 89) and of inst 90; a takeover. -/
theorem test_owner_commands : let s := serve 3
    passes s (cmdOf 0x04 false [1, 2 ^ 25]) 0x04 ∧ (∀ i ∈ clearNames (cmdOf 0x04 false [1, 2 ^ 25]), s.chip.mayClear 0 i = true)
      ∧ passes s (cmdOf 0x04 false [0, 2 ^ 26]) 0x04 ∧ 90 ∈ clearNames (cmdOf 0x04 false [0, 2 ^ 26]) ∧ s.chip.mayClear 0 90 = false
      ∧ passes s { cmdOf 0x13 false [] with chain := 1 } 0x13 := by simp only [passes, taken, posts]; decide +kernel

/-- A submitted job, two with a misaligned address, and an abort of a started one. -/
theorem test_job_commands : let s := serve 3
    let j : Job := ⟨5, 0, 0, 1, 1, 0x400000001000, 0x400000002000, true, 0, [0], [], false, none⟩
    let s := { s with chip := { s.chip with mgmt := { s.chip.mgmt with jobs := [j] } } }
    (∀ e ∈ [cmdOf 0x20 false [0x400000001004, 0xB6FFFFFC0], cmdOf 0x20 false [2, 0], cmdOf 0x20 false [0, 8]], passes s e 0x20)
      ∧ s.chip.populated 0 0x400000001004 = true ∧ s.chip.populated 0 0xB6FFFFFC0 = true ∧ (s.chip.openHandles 0).length < 256
      ∧ passes s (cmdOf 0x21 false [5]) 0x21 ∧ s.chip.job ((cmdOf 0x21 false [5]).p 0) = some j ∧ j.part = 0 ∧ j.ended = none := by
  simp only [passes, taken, posts]; decide +kernel

/-- A configuration of two dies, one with EN 0, a start and a mode request that are accepted, and ones that are not. -/
theorem test_partition_commands :
    (let c := cmdOf 0x10 false [2 ^ 60 + 3 * 2 ^ 4 + 96 * 2 ^ 32 + 24 * 2 ^ 24, 0];
      passes (serve 0) c 0x10 ∧ bit (c.p 0) 60 = true ∧ (serve 0).chip.configBad 0 (c.p 0) = false)
    ∧ passes (serve 4) (cmdOf 0x10 false [0, 0]) 0x10 ∧ (serve 4).chip.parEn 0 = true
    ∧ (∀ t ∈ [3, 4], passes (serve 0) (cmdOf 0x11 false [t]) 0x11 ∧ (serve 0).chip.transitionBad 0 t = none)
    ∧ passes (serve 0) (cmdOf 0x11 false [0]) 0x11 ∧ (serve 0).chip.transitionBad 0 0 = some St.param
    ∧ passes (serve 3) (cmdOf 0x12 false [4]) 0x12 ∧ (serve 3).chip.transitionBad 0 4 = none
    ∧ passes (serve 4) (cmdOf 0x12 false [1]) 0x12 ∧ (serve 4).chip.transitionBad 0 1 = some St.resource := by
  simp only [passes, taken, posts]; decide +kernel

/-- Transitions to every mode, tested and not, with enough parts in service and with too few. -/
theorem test_transitions_end : ∀ t ∈ [1, 2, 3, 4], ∀ b ∈ [true, false], ∀ few ∈ [true, false], let c := cmdOf 0x11 false [t]
    let s := serve 0
    let s := if few then withRegs s [(R.PAR_CTRL 0, wNat (fat F.PAR_CTRL_EN 1 + fat F.PAR_CTRL_DIES 1 + fat F.PAR_CTRL_MIN_CLUSTERS 13))] else s
    let s := { s with chip := { s.chip with mgmt := { s.chip.mgmt with trans := [(0, ⟨some c, 0, t, b⟩)] } } }
    (s.chip.mgmt.trans.map Prod.fst).Pairwise (· < ·) ∧ mget? s.chip.mgmt.trans 0 = some ⟨some c, 0, t, b⟩ ∧ c.part = 0 ∧ c.chain < 2
      ∧ c.op < 256 ∧ (s.chip.mbx c.chain).rseq < 65536 ∧ c.mod = false ∧ (∀ d ∈ (s.chip.mbx c.chain).dupWait, d.cseq ≠ c.cseq)
      ∧ (∀ n ∈ s.chip.clustersOf 0, (s.chip.clu n).resync = none) ∧ s.chip.faults.halted = false ∧ s.chip.parEn 0 = true
      ∧ (s.chip.parClusters 0 < fget (s.chip.reg (R.PAR_CTRL 0)) F.PAR_CTRL_MIN_CLUSTERS ↔ few = true)
      ∧ (few = false → ¬ s.chip.parPairs 0 < fget (s.chip.reg (R.PAR_CTRL 0)) F.PAR_CTRL_MIN_PAIRS
          ∧ ¬ fget (s.chip.reg (R.PAR_CTRL 0)) F.PAR_CTRL_MAX_FENCED_PCH < s.chip.parPch 0) := by decide +kernel

/-- Writes and reads of the last scratch words below the executive's area, bad ones, fills and a fill that runs. -/
theorem test_memory_commands : let s := { serve 3 with mem := word [] 0x400005DFFFF8 0xBBFFFF 9 }
    let w := cmdOf 0x30 false [0x400005DFFFF0, 2, 5, 6]
    let r := cmdOf 0x31 false [0x400005DFFFF8, 1]
    let who := dmaWho ((s.chip.freeChannel 0).getD 0) 0 false
    passes s w 0x30 ∧ s.chip.earlyPassed w = false ∧ s.chip.memWriteCheck w = none ∧ s.chip.freeChannel 0 ≠ none
      ∧ s.chip.meetsFill 0 (w.p 0) 16 = false ∧ s.chip.faults.halted = false
      ∧ (∀ i < 2, s.chip.route who (w.p 0 + 8 * i) true
          = .word (0x400005DFFFF0 + 8 * i) ((0x5DFFFF0 + 8 * i) / 8) (.scratch 0 (0x5DFFFF0 + 8 * i))
          ∧ plain s.chip (0x400005DFFFF0 + 8 * i) (.scratch 0 (0x5DFFFF0 + 8 * i)))
      ∧ passes s (cmdOf 0x30 false [4, 1, 5]) 0x30 ∧ s.chip.memWriteCheck (cmdOf 0x30 false [4, 1, 5]) = some St.param
      ∧ passes s r 0x31 ∧ s.chip.memReadBad r = false ∧ s.chip.meetsFill 0 (r.p 0) 8 = false
      ∧ s.chip.route who (r.p 0) false = .word 0x400005DFFFF8 0xBBFFFF (.scratch 0 0x5DFFFF8)
      ∧ memChk s.mem 0x400005DFFFF8 = some (codeCheck (memWord s.mem 0x400005DFFFF8) 0xBBFFFF)
      ∧ passes s (cmdOf 0x31 false [0, 0]) 0x31 ∧ s.chip.memReadBad (cmdOf 0x31 false [0, 0]) = true := by
  simp only [passes, taken, posts, plain]; decide +kernel

/-- The first word of a write whose page has been retired answers DEFAULT. -/
theorem test_write_answers_default : let s := serve 3
    let s := { s with chip := s.chip.setDom 0 { retire := [(0, (0, false))] } }
    let w := cmdOf 0x30 false [0, 1, 5]
    passes s w 0x30 ∧ s.chip.memWriteCheck w = none ∧ s.chip.route (dmaWho ((s.chip.freeChannel 0).getD 0) 0 false) 0 true = .deflt 0 := by
  simp only [passes, taken, posts]; decide +kernel

theorem test_fills : let c := cmdOf 0x32 false [0, 0xB70000000 / 8, 7]
    let l : LongCmd := ⟨c, 0, 0, 0xB70000000⟩
    let s := serve 0
    let r := { s with chip := { s.chip with mgmt := { s.chip.mgmt with long := [l] } } }
    passes s c 0x32 ∧ c.p 0 % 64 = 0 ∧ c.p 1 ≠ 0 ∧ c.p 1 % 8 = 0 ∧ s.chip.memArea 0 (c.p 0) (8 * c.p 1) 0x05E00000 = true
      ∧ s.chip.longRuns 0 = false ∧ passes r c 0x32 ∧ r.chip.longRuns 0 = true ∧ r.chip.fillOf 0 = some l ∧ l.cmd.chain < 2 ∧ l.cmd.op < 256
      ∧ (r.chip.mbx 0).rseq < 65536 ∧ (r.chip.mbx 0).dupWait = [] ∧ l.die < 4 ∧ l.lo % 64 = 0 ∧ l.lo ≤ l.hi
      ∧ r.chip.bypass (locate (l.lo + 8)) = none ∧ locate (l.lo + 8) = .dram 0 8 ∧ r.chip.pageRetired 0 0 = false
      ∧ r.chip.physOf 0 (chanOf 8) = some 0 := by simp only [passes, taken, posts]; decide +kernel

/-! ## Retirement, maintenance, debug, power and security -/

/-- The first and the last page of a domain: new, already retired, with the map full, pending, and declared by a started job. -/
theorem test_pages : ∀ page ∈ [0, 749567], let add := cmdOf 0x33 false [page]
    let del := cmdOf 0x33 false [2 ^ 63 + page]
    let withMap := fun (m : Nat) (l : List (Nat × (Nat × Bool))) (js : List Job) => let s := serve m
      { s with chip := { s.chip.setDom 0 { retire := l } with mgmt := { s.chip.mgmt with jobs := js } } }
    let s := withMap 3 [] []
    let t := withMap 4 [(7, (page, false))] []
    let u := withMap 1 [(7, (page, true))] [⟨5, 0, 0, 1, 1, 0, 0, true, 0, [0], [⟨false, page * 65536, 64⟩], false, none⟩]
    passes s add 0x33 ∧ bits (add.p 0) 49 48 = 0 ∧ 0 ∈ s.chip.diesOf 0 ∧ bits (add.p 0) 19 0 = page ∧ s.chip.pageSlot 0 page = none
      ∧ s.chip.freeSlot 0 = some 0
      ∧ passes t add 0x33 ∧ (t.chip.pageSlot 0 page).isSome = true
      ∧ passes t del 0x33 ∧ bit (del.p 0) 63 = true ∧ t.chip.pageSlot 0 page = some 7
      ∧ (u.chip.dom 0).retire.find? (fun e => e.2 == (page, true)) = some (7, (page, true)) ∧ u.chip.pageDeclared 0 page = true
      ∧ (withMap 1 [(7, (page, true))] []).chip.pageDeclared 0 page = false := by simp only [passes, taken, posts]; decide +kernel

/-- A retirement map with every slot taken. -/
theorem test_page_map_full : ((serve 3).chip.setDom 0 { retire := (List.range' 0 4096).map fun i => (i, (i, false)) }).freeSlot 0 = none := by
  have key : ∀ n k i : Nat, k ≤ i → i < k + n →
      (mget? ((List.range' k n).map fun i => (i, (i, false))) i).isNone = false := by
    intro n
    induction n with
    | zero => intro k i h1 h2; omega
    | succ n ih =>
      intro k i h1 h2
      simp only [List.range'_succ, List.map_cons]
      by_cases h : k = i
      · subst h; simp [mget?]
      · have := ih (k + 1) i (by omega) (by omega)
        have h' : ¬ i = k := fun e => h e.symm
        simpa [mget?, h'] using this
  have hd : ∀ (c : Chip) (x : Domain), (c.setDom 0 x).dom 0 = x := by
    intro c x; simp [Chip.dom, Chip.setDom]
  simp only [Chip.freeSlot, List.find?_eq_none, List.mem_range, hd]
  intro i hi
  rw [key 4096 0 i (by omega) (by omega)]
  simp

/-- Substitutions of an active channel by the lowest spare, with and without copy, started by either way, that run, and that are over. -/
theorem test_substitutions : ∀ copy ∈ [0, 1], let c := cmdOf 0x34 false [5 * 256 + copy]
    let s := serve 3
    let w := subWord 61 5 copy ||| 1#64
    let r := withRegs s [rst (R.RES_SUB_STAT 0) F.RES_SUB_STAT_BUSY 1, rst (R.RES_PCH 0 5) F.RES_PCH_STATE 3]
    let r := { r with chip := r.chip.setDom 0 { subCmd := some c, subSpare := 61, subTarget := 5, subCopy := copy == 1 } }
    passes s c 0x34 ∧ bits (c.p 0) 49 48 = 0 ∧ 0 ∈ s.chip.diesOf 0 ∧ s.chip.fld (R.RES_SUB_STAT 0) F.RES_SUB_STAT_BUSY = 0
      ∧ s.chip.longRuns 0 = false ∧ bits (c.p 0) 13 8 = 5 ∧ bits (c.p 0) 0 0 = copy ∧ s.chip.fld (R.RES_PCH 0 5) F.RES_PCH_STATE = 0
      ∧ s.chip.lowSpare 0 = some 61 ∧ bit w.toNat 0 = true
      ∧ (s.chip.writeMasked (R.RES_SUB_CTRL 0) w).fld (R.RES_SUB_CTRL 0) F.RES_SUB_CTRL_SPARE = 61
      ∧ (s.chip.writeMasked (R.RES_SUB_CTRL 0) w).fld (R.RES_SUB_CTRL 0) F.RES_SUB_CTRL_TARGET = 5
      ∧ s.chip.fld (R.RES_PCH 0 61) F.RES_PCH_STATE = 1
      ∧ r.chip.fld (R.RES_SUB_STAT 0) F.RES_SUB_STAT_BUSY = 1 ∧ (r.chip.dom 0).subCopy = (copy == 1) ∧ r.chip.faults.halted = false
      ∧ r.chip.fld (R.RES_SUB_STAT 0) F.RES_SUB_STAT_PROGRESS = 0 ∧ (r.chip.dom 0).subTarget = 5 ∧ (r.chip.dom 0).subSpare = 61
      ∧ taken r c 0x34 := by simp only [passes, taken, posts]; decide +kernel

/-- A granule to copy, clean, on the target. -/
theorem test_granule_to_copy : let m : Memory := (List.range 8).foldl (fun m i => word m (dramKey 0 5 0 (8 * i)) (foldOf 5 0 i) (i + 1)) []
    ∀ i < 8, (serve 3).chip.bypass (.dram 0 (8 * foldOf 5 0 i)) = none ∧ (serve 3).chip.fld (R.RES_PCH 0 5) F.RES_PCH_LOGICAL = 5
      ∧ memChk m (dramKey 0 5 0 (8 * i)) = some (codeCheck (memWord m (dramKey 0 5 0 (8 * i))) (foldOf 5 0 i)) := by decide +kernel

/-- The built-in tests in MAINTENANCE, and one while another long command runs. -/
theorem test_built_in_tests : let s := serve 4
    let core := cmdOf 0x40 false [1, 2 ^ 11 + 1]
    let raw := cmdOf 0x40 false [2, 2 ^ 63 + 47 * 2 ^ 16 + 3, 5, 6]
    let pat := cmdOf 0x40 false [4, 0x400005DFFFF8, 1]
    let t := withRegs s [rst (R.SCR_RAW_CTRL 0) F.SCR_RAW_CTRL_EN 1]
    passes s core 0x40 ∧ core.p 1 < 2 ^ 48 ∧ (∀ n ∈ onesOf 48 (core.p 1), n ∈ s.chip.clustersOf 0) ∧ s.chip.longRuns 0 = false
      ∧ passes t raw 0x40 ∧ bit (raw.p 1) 0 = true ∧ bit (raw.p 1) 1 = true ∧ t.chip.fld (R.SCR_RAW_CTRL 0) F.SCR_RAW_CTRL_EN = 1
      ∧ bit (raw.p 1) 63 = true ∧ bits (raw.p 1) 21 16 < 48 ∧ rawOff (wNat (raw.p 1)) < 0x05F00000
      ∧ passes s pat 0x40 ∧ (∀ i ∈ [0], i < pat.p 2) ∧ pat.p 1 % 8 = 0 ∧ pat.p 2 ≠ 0 ∧ s.chip.memArea 0 (pat.p 1) (8 * pat.p 2) 0x05E00000 = true
      ∧ ({ s.chip with mgmt := { s.chip.mgmt with long := [⟨core, 0, 0, 0⟩] } } : Chip).longRuns 0 = true := by
  simp only [passes, taken, posts]; decide +kernel

/-- A redundancy run on an idle cluster 0, whose parameter block declares one output range. -/
theorem test_redundancy_run :
    let s := trio { sup0 with run := .executing } sup0
    let s := withRegs s [rst (R.PAR_STATUS 0) F.PAR_STATUS_MODE 4, (R.PAR_CTRL 0, wNat (fat F.PAR_CTRL_EN 1 + fat F.PAR_CTRL_DIES 1))]
    let c := cmdOf 0x40 false [3, 0, 1, 0x400000001000, 0x400000002000]
    let s := { withMbx s 0 { accept := true } with mem :=
      [0x4A42010001010000, 0x400000003000, 64].zipIdx.foldl (fun m e => word m (0x400000002000 + 8 * e.2) (0x400 + e.2) e.1) [] }
    let j : Job := { handle := 1, part := 0, chain := 0, tag := 65535, cseq := 65535, entry := 0x400000001000, pblock := 0x400000002000,
                     clusters := [0], bist := true }
    passes s c 0x40 ∧ bits (c.p 1) 49 48 ∈ s.chip.diesOf 0 ∧ bits (c.p 1) 43 40 < 12 ∧ c.p 3 % 4 = 0 ∧ c.p 4 % 64 = 0
      ∧ s.chip.populated 0 (c.p 3) = true ∧ s.chip.populated 0 (c.p 4) = true ∧ s.chip.idle 0 = true ∧ s.chip.job 1 = none
      ∧ s.chip.longRuns 0 = false
      ∧ (match readBlock s.chip s.mem (s.chip.execWho 0) (c.p 4) with
          | .good h l => s.chip.rangesOk 0 j h l
          | _ => false) = true := by simp only [passes, taken, posts]; decide +kernel

/-- Injections at both ends of the points, and windows on the last page of either memory. -/
theorem test_injections_and_windows : let s := serve 4
    (∀ pt ∈ [1, 8], let c := cmdOf 0x41 false [11 * 2 ^ 40 + pt * 2 ^ 12, 3]
      passes s c 0x41 ∧ bits (c.p 0) 49 48 ∈ s.chip.diesOf 0 ∧ bits (c.p 0) 43 40 < 12 ∧ bits (c.p 0) 15 12 = pt)
    ∧ (∀ w ∈ [2 ^ 63 + 2 ^ 62 + 1519, 2 ^ 63 + 749567, 0], let c := cmdOf 0x42 false [w, 255]
      passes s c 0x42 ∧ bits (c.p 0) 49 48 ∈ s.chip.diesOf 0 ∧ (bit (c.p 0) 63 = true → bits (c.p 0) 19 0 ≤ if bit (c.p 0) 62 then 1519 else 749567))
    ∧ s.chip.fld (R.ECC_BP_CTRL 0) F.ECC_BP_CTRL_EN = 0
    ∧ (withRegs s [rst (R.ECC_BP_CTRL 0) F.ECC_BP_CTRL_EN 1]).chip.fld (R.ECC_BP_CTRL 0) F.ECC_BP_CTRL_EN = 1 := by
  simp only [passes, taken, posts]; decide +kernel

/-- The public key under which 0x9AC7... signs the message of partition 0, level 2 and nonce 0, for a module of serial number 0. -/
def ownerKey : Nat × Nat :=
  (0x5f64c255cc7c1d903f92217ecda2991ee3bc168f85ca2278362238a384b76a5ad6cfef139d0f7d1c3dee8d0828fe8df7,
   0x5ee1e8d8046f70e3134187d2ea1228deef8c9a1b3499fa3b627846c3fa349e947d36b047458e1012504033d71d0afe1d)
def ownerSig : Nat := 0x9ac7828c442d391fa37899333c91a23716948d9a53a30a5a9f4f89263f7b37fd8992959416e5169c7bb7f77bd1a4e009

/-- A module in the life-cycle state of an owner, with that owner's key and a nonce of level 2. -/
def owned (m : Nat) : State := let s := withRegs (serve m) [rst R.SEC_LC F.SEC_LC_STATE 2]
  { s with chip := { s.chip with sec := { s.chip.sec with ownerKey := some ownerKey, nonces := [(0, (2, 0, 0))] } } }

/-- The signed response of level `lv`. -/
def signed (lv : Nat) : Cmd :=
  let six := fun v : Nat => (List.range 6).map fun i => v / 2 ^ (64 * (5 - i)) % 2 ^ 64
  cmdOf 0x50 false ((3 * 256 + lv) :: (six ownerSig ++ six ownerSig))

theorem test_session_digest : sha384 ((owned 3).chip.sessionMessage 0 0 2) = ownerSig := by decide +kernel

theorem test_owner_key_signs : (owned 3).chip.credOf ownerSig (ownerSig, ownerSig) = some 2 ∧ (owned 3).chip.credOf ownerSig (0, 0) = none := by
  decide +kernel

theorem test_signed_response : let s := owned 3
    passes s (signed 2) 0x50 ∧ passes s (signed 1) 0x50 ∧ s.chip.nonceOf 0 = some (2, 0)
      ∧ s.chip.credOf (sha384 (s.chip.sessionMessage 0 0 2)) (sixWords (signed 2) 1, sixWords (signed 2) 7) = some 2 := by
  have h : sixWords (signed 2) 1 = ownerSig ∧ sixWords (signed 2) 7 = ownerSig := by decide +kernel
  refine ⟨?_, ?_, ?_, ?_⟩
  · simp only [passes, taken, posts]; decide +kernel
  · simp only [passes, taken, posts]; decide +kernel
  · decide +kernel
  · rw [test_session_digest, h.1, h.2]; exact test_owner_key_signs.1

/-- The other methods: a close, a request of a nonce, a password that does not match and, in BLANK, one that does; a level that the
state does not admit; a latched tamper and a lockout; no nonce. -/
theorem test_debug_opens : let s := owned 3
    let pw := fun l : Nat => cmdOf 0x50 false ([2 ^ 8 + l] ++ [0x4141414141414141, 0, 0, 0])
    (∀ e ∈ [cmdOf 0x50 false [0], cmdOf 0x50 false [2 * 256 + 1], cmdOf 0x50 false [2 * 256 + 3], pw 1], passes s e 0x50)
      ∧ s.chip.sec.nonces.Pairwise (fun a b => a.1 < b.1) ∧ s.chip.flag R.SEC_TAMPER_STAT F.SEC_TAMPER_STAT_LATCHED = false
      ∧ s.chip.sec.lockEnd = none ∧ lcAdmits s.chip.lcState 1 1 = true ∧ lcAdmits s.chip.lcState 2 3 = false ∧ lcAdmits s.chip.lcState 3 2 = true
      ∧ s.chip.passwordMatches (pw 1) = false ∧ (serve 3).chip.passwordMatches (pw 1) = true ∧ (serve 3).chip.lcState = 0
      ∧ (serve 3).chip.nonceOf 0 = none ∧ passes (serve 3) (pw 1) 0x50
      ∧ (withRegs s [rst R.SEC_TAMPER_STAT F.SEC_TAMPER_STAT_LATCHED 1]).chip.flag R.SEC_TAMPER_STAT F.SEC_TAMPER_STAT_LATCHED = true := by
  simp only [passes, taken, posts]; decide +kernel

/-- Cluster 0 under a session of level 2 of its partition; the connector's accesses at level 3; a halt that has lasted too long. -/
theorem test_debug_session_controls : ∀ lv ∈ [1, 2, 3],
    let s := withRegs (serve 4) [(R.DBG_SESSION 0, wNat (fat F.DBG_SESSION_OPEN 1 + fat F.DBG_SESSION_LEVEL lv))]
    let who := debugWho 0 (lv == 3)
    s.chip.dbgLevel 0 = lv ∧ (s.chip.controls 0 = if lv = 1 then none else some 0) ∧ s.chip.cluFenced 0 = false ∧ s.chip.dieFenced 0 = false
      ∧ s.chip.flag (R.PAR_STATUS 0) F.PAR_STATUS_FENCED = false ∧ s.chip.route who (R.FOX_CTRL 0) false = .register (R.FOX_CTRL 0)
      ∧ (∀ wr ∈ [true, false], s.chip.route who 0x400000000000 wr = .word 0x400000000000 0 (.scratch 0 0))
      ∧ plain s.chip 0x400000000000 (.scratch 0 0)
      ∧ (let j : Job := ⟨5, 0, 0, 1, 1, 0, 0, true, 0, [0], [], false, none⟩
         let t := { s.chip.setClu 0 { haltAt := some 0, job := some 5 } with mgmt := { s.chip.mgmt with jobs := [j] }, now := 1000000001 };
         (t.clu 0).haltAt = some 0 ∧ (t.clu 0).job = some j.handle ∧ t.job j.handle = some j ∧ j.ended = none ∧ 0 + 1000000000 < t.now) := by
  simp only [plain]; decide +kernel

/-- EXTEST: a session of level 3 while no partition is enabled and no port is up. -/
theorem test_extest_may_drive :
    let s := withRegs State.reset [(R.DBG_SESSION 0, wNat (fat F.DBG_SESSION_OPEN 1 + fat F.DBG_SESSION_LEVEL 3))]
    (∃ p < 4, s.chip.dbgLevel p = 3) ∧ (∀ p < 4, s.chip.parEn p = false) ∧ s.chip.moduleMode = 0 ∧ ∀ p < 4, s.chip.portUp p = false := by
  decide +kernel

/-- A power request to each state, while another runs, and the end of a transition. -/
theorem test_power_requests : let s := serve 0
    (∀ t < 4, passes s (cmdOf 0x60 true [t]) 0x60) ∧ s.chip.fld R.PWR_STAT F.PWR_STAT_BUSY = 0 ∧ s.chip.pState = 0 ∧ s.chip.powerBusy = false
      ∧ (let b := withRegs s [rst R.PWR_STAT F.PWR_STAT_BUSY 1];
         b.chip.fld R.PWR_STAT F.PWR_STAT_BUSY = 1 ∧ passes b (cmdOf 0x60 true [1]) 0x60)
      ∧ (let l : LongCmd := ⟨cmdOf 0x32 false [0, 8, 0], 0, 0, 64⟩
         let b := { s with chip := { s.chip with mgmt := { s.chip.mgmt with long := [l], pwrCmd := some (cmdOf 0x60 true [2]) } } };
         b.chip.powerBusy = true ∧ passes b (cmdOf 0x60 true [2]) 0x60) := by
  simp only [passes, taken, posts]; decide +kernel

/-- A die with each value of THERM and a power limit; an island that runs above 400 MHz while a step down is asked for, one that recovers, one that may
boost and one that must end its boost. -/
theorem test_clocks_step :
    let run := fun l => withRegs (serve 3) ([rst (R.CLK_CLUSTER 0) F.CLK_CLUSTER_GATED 0] ++ l)
    let clk := fun (l : List (Fld × Nat)) => (R.CLK_CLUSTER 0, wNat ((l.map fun e => fat e.1 e.2).sum))
    let island := fun (cur p b pin : Nat) => clk [(F.CLK_CLUSTER_CUR_MHZ, cur), (F.CLK_CLUSTER_POLICY_MHZ, 1600), (F.CLK_CLUSTER_PROTECT, p),
      (F.CLK_CLUSTER_BOOST, b), (F.CLK_CLUSTER_PINNED, pin)]
    (∀ th ∈ [0, 1, 2], (withRegs State.reset [rst (R.PWR_DIE 0) F.PWR_DIE_THERM th]).chip.fld (R.PWR_DIE 0) F.PWR_DIE_THERM = th)
      ∧ (∀ pl ∈ [0, 1], (withRegs State.reset [rst R.PWR_STAT F.PWR_STAT_PLIMIT pl]).chip.limiting = (pl == 1))
      ∧ State.reset.chip.heldAny (List.range 48) = false
      ∧ (∀ pin ∈ [0, 1], let s := run [island 1600 0 0 pin, rst (R.PWR_DIE 0) F.PWR_DIE_THERM 1, rst (R.PWR_DIE 0) F.PWR_DIE_TJ 105]
          let s := withRegs s [(R.PWR_DIE 0, fput (s.chip.reg (R.PWR_DIE 0)) F.PWR_DIE_THERM 1)]
          s.chip.runs 0 = true ∧ s.chip.asksDown 0 = true ∧ 400 < s.chip.fld (R.CLK_CLUSTER 0) F.CLK_CLUSTER_CUR_MHZ
            ∧ s.chip.fld (R.CLK_CLUSTER 0) F.CLK_CLUSTER_PINNED = pin ∧ s.chip.partOf 0 = some 0)
      ∧ (let s := run [island 1500 1 0 0]; s.chip.runs 0 = true ∧ s.chip.recovers 0 = true ∧ s.chip.asksDown 0 = false
          ∧ s.chip.fld (R.CLK_CLUSTER 0) F.CLK_CLUSTER_PROTECT = 1)
      ∧ (let s := run [island 1600 0 0 0]; s.chip.runs 0 = true ∧ s.chip.boostOk 0 = true)
      ∧ (let s := run [island 1700 0 1 1]; s.chip.runs 0 = true ∧ s.chip.boostOk 0 = false ∧ s.chip.fld (R.CLK_CLUSTER 0) F.CLK_CLUSTER_BOOST = 1) := by
  decide +kernel

/-- The end of a transition to P1, with a pinned island and one that is not. -/
theorem test_power_transition_ends :
    let s := withRegs (serve 0) [(R.PWR_STAT, fput (fput (regReset R.PWR_STAT) F.PWR_STAT_BUSY 1) F.PWR_STAT_TARGET 1),
      rst (R.CLK_CLUSTER 1) F.CLK_CLUSTER_PINNED 1]
    s.chip.fld R.PWR_STAT F.PWR_STAT_BUSY = 1 ∧ s.chip.fld R.PWR_STAT F.PWR_STAT_TARGET = 1
      ∧ s.chip.flag (R.CLK_CLUSTER 1) F.CLK_CLUSTER_PINNED = true ∧ s.chip.flag (R.CLK_CLUSTER 0) F.CLK_CLUSTER_PINNED = false := by decide +kernel

/-- A powered module whose feeds are in and out of their range. -/
theorem test_feeds : ∀ v ∈ [0, 1], let s := withRegs State.reset [rst R.PWR_STAT F.PWR_STAT_FEED1_OK v]
    s.chip.powered = true ∧ s.chip.fld R.PWR_STAT F.PWR_STAT_FEED1_OK = v ∧ 255 < 256 := by decide +kernel

/-- A lid that has been open for the filter time exactly, in a state where tamper is armed and one where it is not; and a short opening. -/
theorem test_lid_open : ∀ lc ∈ [0, 2], let s := withRegs State.reset [rst R.SEC_LC F.SEC_LC_STATE lc]
    let n := s.chip.lidFilterNs
    let t := { s with chip := { s.chip with now := n, sec := { s.chip.sec with lidOpenAt := some 0 }, pins := { s.chip.pins with loopClosed := false } } }
    t.chip.powered = true ∧ t.chip.sec.meshAt = none ∧ t.chip.sec.lidOpenAt = some 0 ∧ 0 + t.chip.lidFilterNs ≤ t.chip.now
      ∧ t.chip.tamperArmed = (lc == 2) ∧ ({ t.chip with now := n - 1 } : Chip).now < 0 + t.chip.lidFilterNs ∧ t.chip.pins.loopClosed = false
      ∧ t.chip.sec.shortOpens < 255
      ∧ s.chip.sec.lidOpenAt = none ∧ s.chip.sec.meshAt = none ∧ s.chip.pins.loopClosed = true ∧ s.chip.pins.meshOpen = false
      ∧ s.chip.pins.meshShort = false := by decide +kernel

/-- A vendor's key and signature for transition 1 of a module of serial number 3, and an owner's for a MIN_SVN of 0. -/
def lcReq1 : LcReq :=
  let k := (0x1db0d9b9f7cb70ba9420ed1465f2425ca544fdccd397322353d972797b0ae492096bbf1e048a0dd78846dbfc0af7aa8a,
            0xa62472154158ec1f474f75f0c58ccdc10ff87ed888b3126b6c319b605905899b9aeccb736355a6ab7736106cf6dc9e66)
  let e := 0x82af20dcf5fa102da4816147f0903609a3c9383624e1277e2ae2b784b34e5d77ae1a913e03639880d4c59abf37e9f1a
  ⟨1, 0, 0, 0, none, some k, none, some (e, e)⟩
def lcReq0 : LcReq :=
  let k := (0xdd59f47f697fee9e1ef6298638007e66431a44d099d07bf51d6e5f0dbf7797976b4cb4c63080c38d9c7bba5e1d971d69,
            0x7b86ae09b9568647c539d62fd828a5e2945f40fb1be835ca680bf3011b6dfedf2d077e291c75bda0c1afaf49066569d5)
  let e := 0xfa8b6ec7f5ff646cb1fe0c90d1194443960c4c1420e17b92e9788f7afff2dfd6cfe253da728abeb52afbeb5cc6d1c0a1
  ⟨0, 0, 0, 0, some k, none, some (e, e), none⟩

/-- A module with the fuses that admit both requests, its request closed. -/
def lcState0 : State :=
  { State.reset with chip := { State.reset.chip with
      fuses := { serial := 3, vendorHash := keyHash (lcReq1.vendorKey.getD (0, 0)) }, sec := { lcClosed := true } } }
def svnState0 : State :=
  { State.reset with chip := { State.reset.chip with
      fuses := { ownerHash := keyHash (lcReq0.ownerKey.getD (0, 0)) }, sec := { lcClosed := true } } }

theorem test_lc_digests : lcState0.chip.lcDigest lcReq1 = (lcReq1.vendorSig.getD (0, 0)).1
    ∧ svnState0.chip.lcDigest lcReq0 = (lcReq0.ownerSig.getD (0, 0)).1 := by decide +kernel

theorem test_lc_signatures : ecdsaOk (lcReq1.vendorKey.getD (0, 0)) (lcReq1.vendorSig.getD (0, 0)).1 (lcReq1.vendorSig.getD (0, 0)) = true
    ∧ ecdsaOk (lcReq0.ownerKey.getD (0, 0)) (lcReq0.ownerSig.getD (0, 0)).1 (lcReq0.ownerSig.getD (0, 0)) = true := by decide +kernel

theorem lcSigned_of {d h : Nat} {k g : Nat × Nat} (h1 : (keyHash k == h) = true) (h2 : ecdsaOk k d g = true) :
    lcSigned d h none (some k) (some g) = true := by simp [lcSigned, h1, h2]

theorem test_lc_hashes : (keyHash (lcReq1.vendorKey.getD (0, 0)) == lcState0.chip.fuses.vendorHash) = true
    ∧ (keyHash (lcReq0.ownerKey.getD (0, 0)) == svnState0.chip.fuses.ownerHash) = true := by decide +kernel

theorem test_vendor_signed : lcState0.chip.vendorSigned lcReq1 = true := by
  unfold Chip.vendorSigned
  rw [test_lc_digests.1]
  exact lcSigned_of test_lc_hashes.1 test_lc_signatures.1

theorem test_owner_signed : svnState0.chip.ownerSigned lcReq0 = true := by
  unfold Chip.ownerSigned
  rw [test_lc_digests.2]
  exact lcSigned_of test_lc_hashes.2 test_lc_signatures.2

/-- However a module reads its requests, these two are allowed where it reads them, and one of an unknown number is not. -/
theorem test_lc_requests : lcReq1.number ≠ 0 ∧ lcState0.chip.lcMoment = true ∧ lcState0.chip.lcAllowed lcReq1 = true
    ∧ lcState0.chip.flag R.SEC_TAMPER_STAT F.SEC_TAMPER_STAT_LATCHED = false ∧ lcState0.chip.sec.lcClosed = true
    ∧ lcState0.chip.lcAllowed { lcReq1 with number := 6 } = false
    ∧ lcReq0.number = 0 ∧ svnState0.chip.ownerSigned lcReq0 = true ∧ svnState0.chip.ownerSigned { lcReq0 with ownerSig := none } = false
    ∧ popcount 64 (Nat.lor svnState0.chip.fuses.minSvn lcReq0.minSvn) = 0 := by
  refine ⟨by decide, by decide +kernel, ?_, by decide +kernel, rfl, rfl, rfl, test_owner_signed, rfl, by decide +kernel⟩
  show (lcState0.chip.lcState == 0 && lcState0.chip.vendorSigned lcReq1) = true
  rw [test_vendor_signed, Bool.and_true]
  decide +kernel

/-- Beats inside and outside the interval while the monitor is armed, and a level that does not change. -/
theorem test_beats : ∀ dt ∈ [0, 9499999, 10000000, 100000001, 104999999, 105000000],
    let s := { State.reset with chip := { State.reset.chip with now := dt, faults := { hbArmed := true } } }
    s.chip.powered = true ∧ s.chip.faults.hbArmed = true ∧ s.chip.faults.halted = false ∧ true ≠ s.chip.pins.hbIn ∧ s.chip.now - s.chip.pins.hbAt = dt
      ∧ sensorLine 271 = true ∧ sensorLine 270 = false := by decide +kernel

/-! ## Service port, start-up, resets, jobs, registers, faults and events -/

/-- A module in start-up stage `k`. -/
def staged (k : Nat) (s : State) : State := withRegs s [rst R.HUB_BOOT_STAT F.HUB_BOOT_STAT_STAGE k]

/-- Servers: none while the sequence has not started, the boot ROM, and Terind; image sets in every state of the upload; a request of one part. -/
theorem test_service_port :
    (∀ st ∈ [0, 1, 2], ∀ k ∈ [1, 5, 10], let s := staged k { State.reset with chip := { State.reset.chip with svc := { imgState := st } } }
      s.chip.powered = true ∧ s.chip.offers true = true ∧ s.chip.offers false = decide (5 ≤ k) ∧ s.chip.stage ≠ 3 ∧ s.chip.stage ≠ 4
        ∧ s.chip.svc.imgState = st ∧ s.chip.svc.imgCount = 0 ∧ s.chip.sec.lcClosed = false)
    ∧ (let c := { State.reset.chip with pins := { State.reset.chip.pins with started := false } }; c.powered = true ∧ c.offers true = false)
    ∧ (wNat 90).toNat % 256 ≤ 90 ∧ 90 < (wNat 91).toNat % 256 ∧ bit (wNat 90).toNat 8 = false ∧ (List.replicate 240 (0#8)).length = 240
    ∧ State.reset.chip.alert = false
    ∧ ({ State.reset.chip with svc := { State.reset.chip.svc with opDone := true } } : Chip).alert = true := by decide +kernel

/-- Every stage of the sequence, and the last before READY. -/
theorem test_stages : (∀ k ∈ [1, 2, 3, 4, 5, 6, 7, 8, 9, 10], (staged k State.reset).chip.inStage k = true ∧ (staged k State.reset).chip.inStage 11 = false)
    ∧ State.reset.chip.faults.halted = false ∧ State.reset.chip.flag R.HUB_BOOT_STAT F.HUB_BOOT_STAT_READY = false
    ∧ State.reset.chip.mbxA.evtQ = [] ∧ State.reset.chip.mbxB.evtQ = []
    ∧ (let c := { State.reset.chip with flash := { subs := [(0, (5, 61))] } };
       c.flash.subs = [(0, (5, 61))] ∧ c.fld (R.RES_PCH 0 5) F.RES_PCH_LOGICAL ≠ 0x3F ∧ c.fld (R.RES_PCH 0 61) F.RES_PCH_STATE = 1) := by decide +kernel

/-- An executive image of length 0, as in an erased set whose header says so. -/
theorem test_exec_image : let s := withRegs { State.reset with mem := (List.range 8).map fun i => (0x800000000010 + i, 0#8) } [rst R.HUB_BOOT_STAT F.HUB_BOOT_STAT_IMAGE 1]
    (imageLens s.mem ((s.chip.fld R.HUB_BOOT_STAT F.HUB_BOOT_STAT_IMAGE - 1) * 0x1000000)).2 ≤ 0x30000 := by decide +kernel

/-- A reset that is due, one that is not, and CMD_RESET; feeds of a module in Off and of one that runs. -/
theorem test_resets_are_due :
    (let c := { State.reset.chip with now := 1000000, mgmt := { resetAtNs := some 1000000 } };
      c.powered = true ∧ c.pins.pwrGood = true ∧ dueAt c.mgmt.resetAtNs c.now = true)
    ∧ ¬ (dueAt State.reset.chip.mgmt.resetAtNs State.reset.chip.now = true ∨ dueAt State.reset.chip.sec.lcResetAt State.reset.chip.now = true)
    ∧ passes (serve 3) (cmdOf 0x7F true [0xA55A]) 0x7F
    ∧ ({ State.reset.chip with powered := false } : Chip).powered = false
    ∧ ({ State.reset.chip with pins := { State.reset.chip.pins with pwrGood := false } } : Chip).pins.pwrGood = false := by
  simp only [passes, taken, posts]; decide +kernel

/-- Cluster 0 idle in a partition of mode `m`, with a waiting job whose block asks for `n` clusters and declares an output range at `base`. -/
def jobState (m n magic base : Nat) : State :=
  let s := trio sup0 sup0
  let s := withRegs s [rst (R.PAR_STATUS 0) F.PAR_STATUS_MODE m, (R.PAR_CTRL 0, wNat (fat F.PAR_CTRL_EN 1 + fat F.PAR_CTRL_DIES 1))]
  { s with chip := { s.chip with mgmt := { s.chip.mgmt with jobs := [⟨1, 0, 0, 1, 1, 0x400000001000, 0x400000002000, false, 0, [], [], false, none⟩] } },
           mem := [magic * 2 ^ 48 + 2 ^ 40 + 2 ^ 24 + n * 2 ^ 16, base, 64].zipIdx.foldl
             (fun m e => word m (0x400000002000 + 8 * e.2) (0x400 + e.2) e.1) [] }

/-- What the first waiting job of a state gives: whether its block reads well and its ranges stand. -/
def blockOf (s : State) : Option (Nat × Bool) :=
  match s.chip.nextQueued 0 with
  | none => none
  | some j => match readBlock s.chip s.mem (s.chip.execWho 0) j.pblock with
    | .good h l => some (h.clusters, s.chip.rangesOk 0 j h l)
    | .broken => some (99, false)
    | _ => none

theorem test_jobs_start :
    (∀ m ∈ [1, 2, 3], let s := jobState m 1 0x4A42 0x400000003000
      s.chip.nextQueued 0 = s.chip.mgmt.jobs.head? ∧ s.chip.job 1 = s.chip.mgmt.jobs.head? ∧ s.chip.faults.halted = false ∧ s.chip.mode 0 = m)
    ∧ blockOf (jobState 3 1 0x4A42 0x400000003000) = some (1, true) ∧ blockOf (jobState 3 1 0x4A42 0x1000000000) = some (1, false)
    ∧ blockOf (jobState 3 1 0x4A4F 0x400000003000) = some (99, false) ∧ blockOf (jobState 3 13 0x4A42 0x400000003000) = some (13, true)
    ∧ blockOf (jobState 3 2 0x4A42 0x400000003000) = some (2, true)
    ∧ (let x := (jobState 3 1 0x4A42 0x400000003000).chip
       (x.clustersOf 0).filter x.cluInService = List.range 12 ∧ ((x.clustersOf 0).filter x.cluInService).filter x.idle = [0]) := by decide +kernel

/-- The same in SAFE-T, where the block and the entry lie in a declared input range; nothing pends. -/
theorem test_job_starts_in_safe :
    let s := jobState 1 1 0x4A42 0x400000003000
    let m := [0x4A42010101010000, 0x400000001000, 0x2000, 0x400000003000, 64].zipIdx.foldl
      (fun m e => word m (0x400000002000 + 8 * e.2) (0x400 + e.2) e.1) [];
    let s := { s with mem := m };
    blockOf s = some (1, true) ∧ s.chip.safePart 0 = true ∧ (s.chip.dom 0).retire = [] ∧ s.chip.writesFlowing 0 = [] := by decide +kernel

/-- A started job whose cluster has returned, one whose cluster has not, one that waits, and ended ones, completed and discarded. -/
theorem test_jobs_end :
    let j : Job := ⟨1, 0, 0, 1, 1, 0, 0, true, 0, [0], [], false, none⟩
    let s := fun (ret : Bool) (j : Job) => let c := (serve 3).chip.setClu 0 { job := some 1, returned := ret }
      { c with mgmt := { c.mgmt with jobs := [j] } }
    (s true j).job 1 = some j ∧ ((s true j).clu 0).returned = true ∧ ((s true j).clu 0).slots = [] ∧ (s true j).unconsumed 0 = none
      ∧ ((s false j).clu 0).returned = false ∧ (s true { j with started := false }).job 1 = some { j with started := false }
      ∧ (∀ st ∈ [0, St.discarded, St.aborted], let e : JobEnd := ⟨st, 0#64, 0#64⟩
          let c := s true { j with ended := some e }
          c.job 1 = some { j with ended := some e } ∧ j.bist = false ∧ j.part < 4 ∧ st < 256 ∧ c.badger.restarting = false ∧ c.jobFlows 1 = false
            ∧ (c.mbx (c.owner 0)).rseq < 65536 ∧ (c.mbx (c.owner 0)).eseq < 65536 ∧ (c.mbx (c.owner 0)).evtQ.length < 4096
            ∧ ∀ ch < 2, (mget ({} : DoneList) c.mgmt.done (doneKey 0 ch)).handles.length < 4096)
      ∧ ({ s true j with fabric := { out := [{ piece := { piece0 with job := some 1 } }] } } : Chip).jobFlows 1 = true := by decide +kernel

/-- Cluster 0 in supervisor call `k` of a job, its frame at offset 0x1000 of the Dens with G2 and G3 there. -/
def callState (k entry a : Nat) : State :=
  let x : Core := { withG { sup0 with exc := true } [(14, 0x6FFFFFFE1000)] with cause := 0x0C, eaddr := wNat k }
  let s := streaming 3 x
  let s := { s with chip := { s.chip with mgmt := { s.chip.mgmt with jobs := [⟨1, 0, 0, 1, 1, 0, 0, true, 0, [0], [], false, none⟩] } } }
  let s := { s with chip := s.chip.setClu 0 { job := some 1 } }
  { s with mem := dens 0x1040 entry (dens 0x1048 a s.mem) }

/-- Calls with a bad entry number, a misaligned record, one out of place, and one that waits at a barrier. -/
theorem test_executive_calls : ∀ w ∈ [(1, 15, 0, some 1), (1, 64, 0, some 1), (1, 16, 4, some 3), (1, 63, 2 ^ 46 + 2 ^ 28, some 3), (2, 0, 0, none)],
    let s := callState w.1 w.2.1 w.2.2.1
    let x := s.chip
    let arg := callRead (envOf x 0 ((x.members 0).headD 0)) { x.core ((x.members 0).headD 0) with sup := true } s.mem
      ((x.core ((x.members 0).headD 0)).frame + 0x40) 2 0 []
    ((x.clu 0).job.bind x.job).isSome = true ∧ x.members 0 = [0, 1, 2] ∧ (x.clu 0).slots = []
      ∧ ((x.members 0).all fun k => (x.core (3 * 0 + k)).inCall w.1) = true ∧ ((x.members 0).all fun k => (x.core (3 * 0 + k)).inCall 3) = false
      ∧ (w.1 = 1 → arg = ([wNat w.2.1, wNat w.2.2.1], .okay, []))
      ∧ (∀ k ∈ x.members 0, (x.core (3 * 0 + k)).frame = 0x6FFFFFFE1000)
      ∧ ∀ j ∈ (x.clu 0).job.bind x.job, j.clusters = [0] ∧ (∀ k ∈ j.clusters, k < 48)
          ∧ ((if w.2.1 < 16 ∨ 63 < w.2.1 then some 1 else if w.2.2.1 % 8 ≠ 0 ∨ x.recordPlace (envOf x 0 ((x.members 0).headD 0)) j w.2.2.1 = false then some 3 else none) = w.2.2.2
              ∨ w.1 = 2) := by
  decide +kernel

/-- A good record of the copy chain in the Dens. -/
theorem test_chain_record :
    let s := callState 1 16 0x400000002000
    let m := ((stdEntries.headD (0#64, [])).1 :: (stdEntries.headD (0#64, [])).2 ++ List.replicate 11 0#64).zipIdx.foldl
      (fun m e => word m (0x400000002000 + 8 * e.2) (0x400 + e.2) e.1.toNat) s.mem
    let x := s.chip
    (match (x.clu 0).job.bind x.job with
      | some j => match chainLoad x m (envOf x 0 0) (x.core 0) 0 j 16 0x400000002000 with
        | (some v, effs, _) => v == 0 && decide (x.applyEffs m effs = x)
        | _ => false
      | none => false) = true := by decide +kernel

/-- An address of no register, registers of the blocks named, and writers that may not write. -/
theorem test_register_writers : regDecode 0x7FFFFFFFFFF8 = none
    ∧ (∃ d i k, regDecode R.PWR_STAT = some (d, 0xE, i, k) ∧ d.block = 0x06) ∧ (∃ d i k, regDecode R.SEC_TAMPER_CTRL = some (d, 0xE, i, k) ∧ d.block = 0x04)
    ∧ (∀ n ∈ [0, 47], (∃ d i k, regDecode (R.TIL_CHAIN_K n 255) = some (d, n / 12, i, k)))
    ∧ State.reset.chip.mayReach (foxWho State.reset.chip 0 true) 0 = false ∧ State.reset.chip.sessionOpen 0 = false
    ∧ (serve 3).chip.mayReach (foxWho (serve 3).chip 0 true) (11 / 12) = true
    ∧ (serve 3).chip.pathFenced (0 / 12) (pathDies (serve 3).chip (0 / 12) (11 / 12)) = false ∧ State.reset.chip.linkFenced 4 3 = false
    ∧ regDecode (0x7FFFFFFFFFF8 / 8 * 8) = none ∧ 0x7FFFFFFFFFF8 / 2 ^ 44 = 7
    ∧ (∀ a ∈ [R.OWL_STAT 0, R.SCR_RAW_CTRL 3, R.RES_RET_IDX 1], ((regDecode a).map fun r => onlyBadger r.1) = some true) := by
  refine ⟨by decide +kernel, ⟨_, _, _, rfl, rfl⟩, ⟨_, _, _, rfl, rfl⟩, ?_, by decide +kernel⟩
  intro n hn
  simp only [List.mem_cons, List.not_mem_nil, or_false] at hn
  rcases hn with rfl | rfl
  · exact ⟨_, _, _, rfl⟩
  · exact ⟨_, _, _, rfl⟩

/-- A DMA channel that moves one word from hub SRAM to scratch, and one that moves it back. -/
theorem test_dma_moves : ∀ dir ∈ [0, 1],
    let s := withRegs (serve 3) [(R.DMA_CTRL 0, wNat (fat F.DMA_CTRL_DIR dir)), rst (R.DMA_STAT 0) F.DMA_STAT_BUSY 1, (R.DMA_COUNT 0, 1#64),
      (R.DMA_MADDR 0, wNat 0x400000000008), (R.DMA_SADDR 0, wNat 0x800000)]
    let s := { s with mem := word (word [] 0x500000800000 0x100000 5) 0x400000000008 1 6 }
    let who := dmaWho 0 (s.chip.fld (R.DMA_CTRL 0) F.DMA_CTRL_PTAG) (decide (6 ≤ 0) && s.chip.fld (R.DMA_CTRL 0) F.DMA_CTRL_SECURE == 1)
    s.chip.fld (R.DMA_STAT 0) F.DMA_STAT_BUSY = 1 ∧ State.reset.chip.fld (R.DMA_STAT 0) F.DMA_STAT_BUSY = 0
      ∧ s.chip.fld (R.DMA_COUNT 0) F.DMA_COUNT_WORDS = 1 ∧ s.chip.fld (R.DMA_CTRL 0) F.DMA_CTRL_DIR = dir
      ∧ 0x500000000000 + (s.chip.reg (R.DMA_SADDR 0)).toNat = 0x500000800000 ∧ (s.chip.reg (R.DMA_MADDR 0)).toNat = 0x400000000008
      ∧ ∀ wr ∈ [true, false], s.chip.route who 0x500000800000 wr = .word 0x500000800000 0x100000 (.hub 0x800000)
          ∧ s.chip.route who 0x400000000008 wr = .word 0x400000000008 1 (.scratch 0 8)
          ∧ memChk s.mem 0x500000800000 = some (codeCheck (memWord s.mem 0x500000800000) 0x100000)
          ∧ memChk s.mem 0x400000000008 = some (codeCheck (memWord s.mem 0x400000000008) 1)
          ∧ plain s.chip 0x500000800000 (.hub 0x800000) ∧ plain s.chip 0x400000000008 (.scratch 0 8) ∧ s.chip.silent who 0x400000000008 = false := by
  simp only [plain]; decide +kernel

/-- A cluster that is held, one that is not and has a job, a fenced one and a stopped one. -/
theorem test_held_clusters : let s := State.reset
    s.chip.fld (R.FOX_CTRL 0) F.FOX_CTRL_HOLD = 1 ∧ s.chip.cluFenced 0 = false ∧ (s.chip.clu 0).stop = .running ∧ 2 ≤ (s.chip.unfenced 0).length
      ∧ (withRegs s [(R.FLT_FENCE 0, wNat (2 ^ 19))]).chip.cluFenced 0 = true
      ∧ ((s.chip.setClu 0 { stop := .selfTest }).clu 0).stop ≠ .running
      ∧ (let j : Job := ⟨1, 0, 0, 1, 1, 0, 0, true, 0, [0], [], false, none⟩
         let c := (withRegs s [rst (R.FOX_CTRL 0) F.FOX_CTRL_HOLD 0]).chip.setClu 0 { job := some 1 }
         let c := { c with mgmt := { c.mgmt with jobs := [j] } };
         c.fld (R.FOX_CTRL 0) F.FOX_CTRL_HOLD = 0 ∧ c.cluFenced 0 = false ∧ (c.clu 0).job = some j.handle ∧ c.job j.handle = some j ∧ j.ended = none) := by
  decide +kernel

/-- A module in Off and one in HALTED; a corrected error in an empty and in a full record; a consequential detection. -/
theorem test_detections :
    ({ State.reset.chip with powered := false } : Chip).powered = false
    ∧ (∀ v ∈ [0, 1], (withRegs State.reset [rst (R.FLT_STAT 49) F.FLT_STAT_VALID v]).chip.fld (R.FLT_STAT 49) F.FLT_STAT_VALID = v)
    ∧ det0.source ∈ ceSources ∧ det0.inst ≤ 90 ∧ State.reset.chip.powered = true ∧ State.reset.chip.faults.halted = false
    ∧ (let d := { det0 with source := 0x02, detail := 0 }
       let c := { State.reset.chip with faults := { quar := [(bnd d.inst 0, 0)], halted := true } };
       c.consequential d = true ∧ State.reset.chip.consequential d = false ∧ detClass d = 2 ∧ c.faults.halted = true ∧ d.source ≠ 0)
    ∧ (0x04 ∈ ceSources ∧ (let c : Chip := (trio { sup0 with icache := [(64, [])] } sup0).chip; (mget? (c.core 1).icache (2 * (2 * 1 + 1) / 4 * 64)).isSome = true))
    ∧ (∀ src ∈ [0x01, 0x13], let e := { det0 with source := src }
        e.inst = det0.inst ∧ (e.source = 0x13 ∨ (e.source ∈ ceSources ∧ e.source < 0x04)) ∧ 0x04 ∈ ceSources) := by decide +kernel

/-- The sources of the reactions, each with its unit and the state that it acts on. -/
theorem test_reactions : let j : Job := ⟨1, 0, 0, 1, 1, 0, 0, true, 0, [0], [], false, none⟩
    let c := { (serve 3).chip with mgmt := { (serve 3).chip.mgmt with jobs := [j] } }
    c.powered = true ∧ c.faults.halted = false ∧ c.job j.handle = some j ∧ j.ended = none ∧ c.cluFenced 47 = false ∧ c.tileFenced 47 14 = false
      ∧ bit (c.reg (R.FLT_FENCE 53)).toNat 63 = false
      ∧ (∀ die < 4, c.fld (R.RES_SUB_STAT die) F.RES_SUB_STAT_BUSY = 0 ∧ 53 + 7 * die ≤ 90)
      ∧ (∀ st ∈ [0, 1], ((withRegs (serve 3) [rst (R.RES_PCH 0 63) F.RES_PCH_STATE st]).chip).fld (R.RES_PCH 0 63) F.RES_PCH_STATE = st)
      ∧ c.partOf 3 = none ∧ c.partOf 0 = some 0 ∧ c.safePart 0 = false ∧ c.fld (R.PAR_STATUS 0) F.PAR_STATUS_FENCED = 0
      ∧ locAt 4 (3 * 2 ^ 28) / 2 ^ 28 = 3 ∧ det0.inj = false ∧ det0.unit = 0 := by decide +kernel

/-- HALTED while Terind runs and before; a Badger pair that restarts with a command waiting; a quarantined boundary. -/
theorem test_halt_and_restart :
    (∀ st ∈ [4, 5, 10, 15], let c : Chip := { (staged st State.reset).chip with faults := { halted := true, quar := [(3, 0)] } };
      c.faults.halted = true ∧ c.fld R.HUB_BOOT_STAT F.HUB_BOOT_STAT_STAGE = st ∧ c.quarantined 3 = true)
    ∧ (let c := cmdOf 0x01 true []
       let x : Chip := { State.reset.chip with badger := { restarting := true }, mbxA := { accept := true }, queues := { waiting := [⟨c, 0, true, false⟩] } };
       x.badger.restarting = true ∧ x.faults.halted = false ∧ c ∈ x.unanswered ∧ c.op < 256 ∧ (x.mbx 0).rseq < 65536)
    ∧ State.reset.chip.badger.restarting = false
    ∧ (∀ n ∈ [(5119, true), (5120, false)], let c : Chip := { State.reset.chip with now := n.1, faults := { quar := [(bnd 86 0x310, 4096)] } };
        c.quarantined (bnd 86 0x310) = n.2) := by decide +kernel

/-- Lines at both ends and of each kind; a scan that runs with one line pending; an entry that differs from its inst alone. -/
theorem test_events : lineUnused 6 = true ∧ lineUnused 5 = false ∧ lineUnused 287 = true ∧ lineUnused 277 = false ∧ lineConsumed 143 = true
    ∧ lineConsumed 3 = false
    ∧ (∀ k ∈ [3, 90, 143, 277], let s := withRegs (withMbx (withMbx (serve 3) 0 { accept := true, eseq := 65535 }) 1 {}) [(R.EVR_PEND (k / 64), wNat (2 ^ (k % 64))), rst R.HUB_BOOT_STAT F.HUB_BOOT_STAT_READY 1];
        s.chip.flag R.HUB_BOOT_STAT F.HUB_BOOT_STAT_READY = true ∧ s.chip.badger.restarting = false
          ∧ (∀ j < 288, bit (s.chip.reg (R.EVR_PEND (j / 64))).toNat (j % 64) = decide (j = k))
          ∧ ∀ ch < 2, (s.chip.mbx ch).evtQ.length < 4096 ∧ (s.chip.mbx ch).eseq < 65536) := by decide +kernel

theorem test_audit : (∀ i ≤ 90, State.reset.chip.viewAgrees i = true)
    ∧ (let c := { State.reset.chip with mgmt := { view := [(90, (1#64, 0#64, 0#64, 65535))] } };
       c.viewAgrees 90 = false ∧ c.linePending 106 = false ∧ ∀ j ≤ 90, j ≠ 90 → c.viewAgrees j = true) := by decide +kernel

/-! ## The manual's own examples (chapters 3 and 23), and a published digest -/

/-- Section 23.3: tiles 10 and 11 of cluster 3 close windows of block 13 with different signatures; FLT_STAT of inst 3 reads as printed. -/
theorem test_pair_mismatch_record :
    let s := streaming 1 sup0
    let w : CmtWin := { slot := 0, block := 13, dest := 0, half := 0, sig := 5, closed := true }
    let c := s.chip.setSlot 3 0 (copySlot 7488 .running 0)
    let c := (c.setTile (16 * 3 + 10) ⟨[w]⟩).setTile (16 * 3 + 11) ⟨[{ w with sig := 6 }]⟩
    (match exec (.pairDecision 3 5 0 ⟨false, none⟩) { s with chip := c } with
      | .next u => decide (u.chip.reg (R.FLT_STAT 3) = 0x8206423003FFFFFF#64) && decide (u.chip.fld (R.FLT_INFO 3) F.FLT_INFO_DETAIL = 5)
          && decide (u.chip.fld (R.CMT_STAT (16 * 3 + 10)) F.CMT_STAT_MISMATCH_TOTAL = 1)
      | _ => false) = true := by decide +kernel

/-- Section 23.3: EV019 on chain A as printed. -/
theorem test_event_word :
    let s := withRegs (withMbx (serve 1) 0 { accept := true, eseq := 0x512 }) [(R.FLT_STAT 3, 0x8206423003FFFFFF#64), (R.EVR_PEND 0, wNat (2 ^ 19)),
      rst R.HUB_BOOT_STAT F.HUB_BOOT_STAT_READY 1]
    (match exec .eventScan s with
      | .next u => decide (u.chip.mbxA.evtQ = [0xE099051282064230#64]) && decide (u.chip.mbxB.evtQ = [])
      | _ => false) = true := by decide +kernel

/-- Section 23.1: chain entry 17 meets R102, and H1's descriptor is not refused in the declared ranges of its job. -/
theorem test_shear_force_stream :
    let ce : ChainEntry := ⟨0x9001C90000000000#64, [0x0C3C220000000000#64, 0x917E000000000000#64], []⟩
    let h1 := [0x4400000000001D3F#64, 0x0001400000200000#64, 0x0001400000210000#64, 0#64, 0x0001400000300000#64, 0#64, 0#64, 0#64]
    let s := withRegs (streaming 1 sup0) [(R.AGU_RNG_LO 0 0, wNat (2 ^ 63 + 0x400000200000)), (R.AGU_RNG_HI 0 0, wNat 0x40000021FFC0),
      (R.AGU_RNG_LO 0 1, wNat (2 ^ 63 + 2 ^ 62 + 0x400000300000)), (R.AGU_RNG_HI 0 1, wNat 0x40000031FFC0)]
    ce.ok = true ∧ (s.chip.setChainEntry 0 17 ce).refusal 0 ((s.chip.setChainEntry 0 17 ce).viewOf 0 h1) = none := by decide +kernel

/-- Sections 3.9 and 23.2: EXT 0x3F86 is 254,400 elements; the status word of slot 19, generation 2, cause 0x21 and POS 2. -/
theorem test_gather_example : opExtent 0x3F86000004000000 = 254400
    ∧ ({ gen := 2, cause := 0x21, pos := 2 } : Slot).status 19 = 0x2100930000000002#64 := by decide +kernel

/-- SHA-384 of the three bytes that its standard's first example takes (R434, R449, R459 name the function). -/
theorem test_sha384 : sha384 [0x61#8, 0x62#8, 0x63#8]
    = 0xcb00753f45a35e8bb5a03d699ac65007272c32ab0eded1631a8b605a43ff5bed8086072ba1e7cc2358baeca134c825a7 := by decide +kernel

end Sys2Proof.Tests
end

section
/-! PROOFS. Words that write registers of the current context and go on to the next word. -/

namespace Sys2Proof.Machine

variable {x y z : Core}

/-- Core `y` is core `x` but for the current bank and the open window, whose signature records the writes (R294). -/
def Core.bankWritten (x y : Core) : Prop :=
  y = { x with banks := y.banks, win := y.win } ∧ ∀ k, k ≠ x.key → y.bankOf k = x.bankOf k

theorem Core.bankWritten_refl (x : Core) : x.bankWritten x := ⟨rfl, fun _ _ => rfl⟩

theorem Core.bankWritten.key (h : x.bankWritten y) : y.key = x.key := by rw [h.1]; rfl

theorem Core.bankWritten.trans (h : x.bankWritten y) (h' : y.bankWritten z) : x.bankWritten z := by
  refine ⟨?_, fun k hk => (h'.2 k (h.key ▸ hk)).trans (h.2 k hk)⟩
  rw [h'.1, h.1]

theorem Core.bankWritten_setG (x : Core) (r : Reg) (v : Word) : x.bankWritten (x.setG r v) :=
  ⟨rfl, fun _ hk => by simp [Core.setG, Core.setGOf, Core.bankOf_setBank_ne, hk]⟩

theorem Core.bankWritten_setFlags (x : Core) (f : Flags) : x.bankWritten (x.setFlags f) :=
  ⟨rfl, fun _ hk => by simp [Core.setFlags, Core.bankOf_setBank_ne, hk]⟩

theorem Core.bankWritten_setB (x : Core) (n : Fin 8) (v : BitVec 32) : x.bankWritten (x.setB n v) :=
  ⟨rfl, fun _ hk => by simp [Core.setB, Core.bankOf_setBank_ne, hk]⟩

/-- A short operation writes the current bank of the core that takes its result. -/
theorem Core.bankWritten_shortWrite (x y : Core) (o : ShortOp) : y.bankWritten (shortWrite x y o) := by
  have hresult : ∀ r : Option (Reg × Word), y.bankWritten (match r with | some (d, v) => y.setG d v | none => y) := by
    rintro (_ | ⟨d, v⟩)
    · exact y.bankWritten_refl
    · exact y.bankWritten_setG d v
  unfold shortWrite
  cases shortFlags x o with
  | none => exact hresult _
  | some f => exact (hresult _).trans (Core.bankWritten_setFlags _ f)

theorem Core.bN_eq (x : Core) (n : Fin 8) : x.bN n.val = x.bank.b[n.val] := by
  simp [Core.bN, Vector.get]

theorem Core.bN_setB_self (x : Core) (n : Fin 8) (v : BitVec 32) : (x.setB n v).bN n.val = v := by
  simp [Core.bN_eq, Core.setB_bank]

theorem Core.bN_setB_ne (x : Core) {n j : Fin 8} (v : BitVec 32) (h : j ≠ n) : (x.setB n v).bN j.val = x.bN j.val := by
  simp [Core.bN_eq, Core.setB_bank, Fin.val_inj, h.symm]

@[simp] theorem Core.retire_bN (x : Core) (n k : Nat) : (x.retire n).bN k = x.bN k := by simp [Core.bN]

/-- RSP and the shadow stack follow the current context's bank, which a write that keeps both in the current bank leaves. -/
theorem Core.bankWritten.stack (h : x.bankWritten y) (hb : y.bank.rsp = x.bank.rsp ∧ y.bank.shadow = x.bank.shadow) :
    y.rsp = x.rsp ∧ y.shadow = x.shadow := by
  have hcur : y.cur = x.cur := by rw [h.1]
  unfold Core.rsp Core.shadow
  rw [hcur]
  by_cases hk : x.cur = x.key
  · rw [hk]
    rw [Core.bank, Core.bank, h.key] at hb
    exact hb
  · rw [h.2 _ hk]
    exact ⟨rfl, rfl⟩

/-- Retirement moves the PC, the counts, the run state and the windows. -/
theorem Core.retire_eq (x : Core) (n : Nat) :
    x.retire n = { x with lastPc := x.pc, pc := n % 2 ^ 48, retired := x.retired + 1, run := .executing, stm := none,
                          win := (x.retire n).win, closed := (x.retire n).closed } := by
  unfold Core.retire
  simp only []
  split <;> rfl

@[simp] theorem Core.retire_bankOf (x : Core) (n k : Nat) : (x.retire n).bankOf k = x.bankOf k := by simp [Core.bankOf]

end Sys2Proof.Machine

namespace Sys2Proof.Proofs

open Sys2Proof.Machine Sys2Proof.Claims

/-! ## A word that touches its cores alone -/

/-- A word that gives each core of its target a new state and touches nothing else: the claims' frame holds, and the cores take their states. -/
theorem runWord_coresOnly {s : State} {t : Tgt} {f : Act} (g : Nat → Core) (ht : takes s t)
    (hf : ∀ k ∈ s.chip.coresOf t, f (envOfCore s t k) (fetched s t k) s.mem = ⟨g k, s.mem, []⟩)
    (hrun : ∀ k ∈ s.chip.coresOf t, (g k).run ≠ .stopped)
    (herec : ∀ k ∈ s.chip.coresOf t, (g k).erec = (s.chip.core k).erec) :
    ∃ u, s.runWord t f = .next u ∧ coresOnly s u t ∧ ∀ k ∈ s.chip.coresOf t, u.chip.core k = g k := by
  have hran : ∀ k ∈ s.chip.coresOf t, s.chip.ranCore s.mem t f k = g k := fun k hk => congrArg CoreRes.core (hf k hk)
  have hpure : s.chip.pureOn s.mem t f := ⟨[], fun k hk => ⟨congrArg CoreRes.mem (hf k hk), congrArg CoreRes.effs (hf k hk)⟩⟩
  obtain ⟨hmem, hcore, hchip⟩ := Chip.runWord_pure ht hpure (fun k hk => hran k hk ▸ hrun k hk)
    (fun k hk => by rw [hran k hk, herec k hk])
  exact ⟨_, rfl, ⟨hmem, rfl, fun k hk => (hcore k).trans (if_neg hk), hchip⟩,
    fun k hk => ((hcore k).trans (if_pos hk)).trans (hran k hk)⟩

/-- The word retires on a core whose current bank alone it has written. -/
theorem retiredTo_retire {x y : Core} (h : x.bankWritten y) (n : Nat) : retiredTo (n % 2 ^ 48) x (y.retire n) := by
  have hbank : ∀ k, k ≠ x.key → k ≠ x.cur → (y.retire n).bankOf k = x.bankOf k := fun k hk _ => by
    rw [Core.retire_bankOf, h.2 k hk]
  unfold retiredTo
  rw [Core.retire_key, h.key]
  refine ⟨Core.retire_pc y n, ?_, ?_, ?_, rfl, ?_, hbank, ?_⟩ <;> rw [Core.retire_eq, h.1]
  exact ⟨rfl, rfl, rfl, rfl, rfl, rfl, rfl, rfl⟩

theorem wentOn_step4 {x y : Core} (h : x.bankWritten y) : wentOn x y.step4 := by
  have hpc : y.pc = x.pc := by rw [h.1]
  unfold wentOn Core.step4
  rw [hpc]
  exact retiredTo_retire h _

/-- The claim that a core went on does not see the caches, which the fetch moves. -/
theorem wentOn_of_fetch {e : Env} {x y : Core} {m : Memory} (h : wentOn (x.fetch e m) y) : wentOn x y := h

/-- A word that writes the current bank of each core from the core's own registers (`w`) and goes on does what `P` says of the write.
`P` does not see the caches, which the fetch moves. -/
theorem wordDoes_writing {i : Instr} {t : Tgt} {s : State} {P : Core → Core → Prop} (w : Core → Core)
    (hexec : exec i s = s.runWord t fun _ x m => ⟨(w x).step4, m, []⟩) (hw : ∀ x : Core, x.bankWritten (w x))
    (hcaches : ∀ x e m y, P (Core.fetch e x m) y → P x y) (hP : ∀ x, P x (w x).step4) : wordDoes i t s P := by
  intro ht
  have herec : ∀ x : Core, (w x).erec = x.erec := fun x => by rw [(hw x).1]
  obtain ⟨u, hu, honly, hcores⟩ := runWord_coresOnly (f := fun _ x m => ⟨(w x).step4, m, []⟩)
    (fun k => (w (fetched s t k)).step4) ht (fun _ _ => rfl) (fun k _ => by simp [Core.step4])
    (fun k _ => by rw [Core.step4, Core.retire_erec, herec]; rfl)
  refine ⟨u, hexec.trans hu, honly, fun k hk => ?_⟩
  rw [hcores k hk]
  exact ⟨wentOn_of_fetch (wentOn_step4 (hw (fetched s t k))), hcaches _ _ _ _ (hP (fetched s t k))⟩

/-! ## What a register write sets and keeps -/

theorem setsReg_of_bank {x y : Core} {d : Reg} {v : Word} {f : Flags} (h : x.bankWritten y)
    (hb : y.bank = { x.bank with g := x.bank.g.set d v, flags := f }) : setsReg d v f x y.step4 := by
  obtain ⟨hrsp, hshadow⟩ := h.stack (by rw [hb]; exact ⟨rfl, rfl⟩)
  have hv : y.v = x.v := by rw [h.1]
  have hg : ∀ r, y.step4.g r = (x.setG d v).g r := fun r => by
    simp [Core.step4, Core.g, hb, Core.setG_bank]
  have hbank : y.step4.bank = y.bank := Core.retire_bank _ _
  refine ⟨by rw [hg, Core.g_setG_self], fun r hr => by rw [hg, Core.g_setG_ne _ _ hr], ?_, ?_, ?_, ?_, ?_, ?_⟩
  iterate 3 rw [hbank, hb]
  · simpa [Core.step4, Core.rsp] using hrsp
  · simpa [Core.step4, Core.shadow] using hshadow
  · simpa [Core.step4] using hv

/-! ## The flags of a compare -/

/-- A signed result read back from 64 bits differs from the exact one just when the exact one lies outside INT64. -/
theorem toInt_wInt_ne (i : Int) : decide ((wInt i).toInt ≠ i) = outside i := by
  unfold wInt outside
  rw [BitVec.toInt_ofInt, ← Bool.decide_or]
  refine decide_eq_decide.2 ?_
  rw [Int.bmod_def]
  split <;> omega

theorem neg64_eq_getLsbD (r : Word) : neg64 r = r.getLsbD 63 := bit_eq_testBit _ _

/-- CMP (Table 9.7): the flags of the difference. -/
theorem subFlags_zero (a b : Word) :
    (subFlags a b 0).2 = nz (a - b) (decide (b.toNat ≤ a.toNat)) (outside (a.toInt - b.toInt)) := by
  have hr : wInt (a.toInt - b.toInt) = a - b :=
    BitVec.eq_of_toInt_eq ((BitVec.toInt_ofInt _).trans BitVec.toInt_sub.symm)
  have hs : a.toInt - b.toInt - ((0 : Nat) : Int) = a.toInt - b.toInt := Int.sub_zero _
  simp only [subFlags, hs, toInt_wInt_ne]
  rw [hr, Nat.add_zero, flagsNZ, neg64_eq_getLsbD, nz, Bool.beq_eq_decide_eq]

/-! ## LDB and MFB -/

theorem bankRegistersHoldAddressBits : BankRegistersHoldAddressBits := by
  intro s t d a n
  constructor
  · refine wordDoes_writing (fun x => x.setB n ((x.g a).extractLsb' 16 32)) rfl (fun x => x.bankWritten_setB _ _)
      (fun _ _ _ _ h => h) fun x => ⟨?_, fun r => ?_, ?_, fun j hj => ?_, ?_⟩
    · simp [Core.step4, Core.bN_setB_self, Nat.shiftRight_eq_div_pow]
    · simp [Core.step4, Core.g, Core.setB_bank]
    · simp [Core.step4, Core.setB_bank]
    · simp [Core.step4, Core.bN_setB_ne _ _ hj]
    · simp only [Core.step4, Core.retire_v]; rfl
  · exact wordDoes_writing (fun x => x.setG d (wNat ((x.bN n.val).toNat * 65536))) rfl (fun x => x.bankWritten_setG _ _)
      (fun _ _ _ _ h => h) fun x => setsReg_of_bank (x.bankWritten_setG _ _) (x.setG_bank _ _)

/-! ## Short pairs -/

/-- A legal pair (R237): both slots' operands are those before the pair, and slot A's result is written first. -/
theorem exec_shortPair_legal {a b : ShortOp} (h : pairLegal a b = true) (t : Tgt) (s : State) :
    exec (.shortPair t a b) s = s.runWord t fun _ x m => ⟨(shortWrite x (shortWrite x x a) b).step4, m, []⟩ := by
  have : actPair a b = fun _ x m => ⟨(shortWrite x (shortWrite x x a) b).step4, m, []⟩ := by
    funext e x m
    exact if_pos h
  rw [← this]
  rfl

/-- A legal short pair does what `P` says of its two writes. -/
theorem wordDoes_shortPair {a b : ShortOp} {t : Tgt} {s : State} {P : Core → Core → Prop} (h : pairLegal a b = true)
    (hcaches : ∀ x e m y, P (Core.fetch e x m) y → P x y)
    (hP : ∀ x, P x (shortWrite x (shortWrite x x a) b).step4) : wordDoes (.shortPair t a b) t s P :=
  wordDoes_writing _ (exec_shortPair_legal h t s)
    (fun x => (Core.bankWritten_shortWrite x x a).trans (Core.bankWritten_shortWrite x _ b)) hcaches hP

/-- Two results for different registers: each register takes its own, and the others and FLAGS stay. -/
theorem setG_setG_step4 (x : Core) {d e : Reg} (v w : Word) (h : e ≠ d) : let y := ((x.setG d v).setG e w).step4
    y.g d = v ∧ y.g e = w ∧ (∀ r, r ≠ d → r ≠ e → y.g r = x.g r) ∧ y.bank.flags = x.bank.flags := by
  refine ⟨?_, ?_, fun r hd he => ?_, ?_⟩
  · simp [Core.step4, Core.g_setG_ne _ _ h.symm]
  · simp [Core.step4]
  · simp [Core.step4, Core.g_setG_ne _ _ hd, Core.g_setG_ne _ _ he]
  · simp [Core.step4, Core.setG_bank]

theorem legalShortPairsReadBeforeTheyWrite : LegalShortPairsReadBeforeTheyWrite := by
  intro s t d e a b u
  refine ⟨fun he hb => ?_, fun ha hb => ?_, fun he => ?_⟩
  · refine wordDoes_shortPair ?_ (fun _ _ _ _ h => h) fun x => setG_setG_step4 x _ _ he
    simp [pairLegal, shortWrites, shortReads, Fin.val_inj, he.symm, hb.symm]
  · refine wordDoes_shortPair ?_ (fun _ _ _ _ h => h) fun x => setsReg_of_bank ?_ ?_
    · simp [pairLegal, shortWrites, shortReads, flagsReg, Fin.val_inj, ha.symm, hb.symm]
      omega
    · exact (Core.bankWritten_setG x _ _).trans (Core.bankWritten_setFlags _ _)
    · rw [← subFlags_zero]
      exact (Core.setFlags_bank (x.setG d _) _).trans (by rw [Core.setG_bank])
  · refine wordDoes_shortPair ?_ (fun _ _ _ _ h => h) fun x => setG_setG_step4 x _ _ he
    simp [pairLegal, shortWrites, shortReads, Fin.val_inj, he.symm]

/-- Settles O6: each word writes the current bank from the registers before it and goes on. -/
theorem bankRegistersAndShortPairs : Obligations.BankRegistersAndShortPairs :=
  ⟨bankRegistersHoldAddressBits, legalShortPairsReadBeforeTheyWrite⟩

end Sys2Proof.Proofs
end

section
/-! PROOFS. An illegal branch in a context whose number does not fit STATE: the frame of its entry names another cause. -/

namespace Sys2Proof.Proofs

open Sys2Proof.Machine Sys2Proof.Claims

/-- A Badger core that executes in context 256, with room for a frame below its G15. -/
def wideContextCore : Core :=
  { run := .executing, cur := 256, banks := [(256, { g := (Vector.replicate 16 0#64).set 15 0x6FFFFFFF8000#64 })] }

/-- The reset state with both Badger cores in context 256. -/
def wideContext : State :=
  { State.reset with chip := { State.reset.chip with cores := [(144, wideContextCore), (145, wideContextCore)] } }

theorem wideContext_takes : takes wideContext .badger := by
  unfold takes; decide +kernel

theorem wideContext_canEnter : ∀ k ∈ wideContext.chip.coresOf .badger, canEnter wideContext .badger k
    ∧ (wideContext.chip.core k).pc < 2 ^ 48 ∧ 0 < 2 ^ 64 := by
  simp only [canEnter, ← Option.mem_def]; decide +kernel

/-- The stored words after a word's row. -/
theorem mem_of_runWord {s u : State} {t : Tgt} {f : Act} (h : s.runWord t f = .next u) : u.mem = (s.chip.runWord s.mem t f).2 := by
  unfold State.runWord at h
  obtain rfl := Host.Outcome.next.inj h
  rfl

/-- CTX 256 of STATE overflows from bit 48 into CAUSE at bit 56, so that the frame of an illegal branch (cause 0x01) reads cause 0x02. -/
theorem wideContext_illegalBranch_cause {u : State} (h : exec (.bCc .badger 15#4 0#20) wideContext = .next u) :
    denData u 144 (frameOff wideContext .badger 144 + 8) / 2 ^ 56 = 2 := by
  have hmem := mem_of_runWord (f := actBranch 15#4 0#20) h
  unfold denData
  rw [hmem]
  decide +kernel

/-- Refutes O11 at the illegal branch: the statement bounds no context number, and `wideContext` stands in context 256. There the frame of
`bCc` with code 0xF has STATE with cause 0x02 where the statement asks for 0x01. A core has 8 contexts or 4, so no such state is one of the
hardware's; the statement lacks the premise that CALL and RET have, that the current context is one of the core's. -/
theorem not_branchesCallsAndReturnsMoveThePc : ¬ Obligations.BranchesCallsAndReturnsMoveThePc := by
  rintro ⟨hbranch, -⟩
  obtain ⟨-, hillegal, -⟩ := hbranch wideContext .badger 0#4 0#20 0
  obtain ⟨u, hexec, -, -, hcores⟩ := hillegal wideContext_takes wideContext_canEnter
  obtain ⟨-, -, hcause, -⟩ := hcores 144 (by decide)
  rw [wideContext_illegalBranch_cause hexec] at hcause
  exact absurd hcause (by decide)

end Sys2Proof.Proofs
end

section
/-! PROOFS. CRIT with a code that R269 does not list: it is an illegal word, as a branch with an unlisted condition is. -/

namespace Sys2Proof.Proofs

open Sys2Proof.Machine Sys2Proof.Claims

/-- R269: a CRIT code above 511 other than that of CRIT.END is illegal, whatever the privilege and whether a window is open. -/
theorem actCrit_eq_illegal {imm : BitVec 16} (hcode : 512 ≤ imm.toNat) (hend : imm ≠ 0x8000#16) : actCrit imm = illegal := by
  have hend' : imm.toNat ≠ 0x8000 := fun h => hend (BitVec.eq_of_toNat_eq h)
  have hlarge : 511 < imm.toNat := hcode
  funext e x m
  simp [actCrit, hend', hlarge]

/-- R247: a branch with condition code 0xF is illegal. -/
theorem actBranch_eq_illegal (disp : BitVec 20) : actBranch 15#4 disp = illegal := rfl

/-- The two illegal words do the same, so that what is known of the branch's entry holds of CRIT's. -/
theorem exec_crit_eq_bCc_of_illegal {imm : BitVec 16} (hcode : 512 ≤ imm.toNat) (hend : imm ≠ 0x8000#16) (t : Tgt) (disp : BitVec 20)
    (s : State) : exec (.crit t imm) s = exec (.bCc t 15#4 disp) s := by
  have hact : actCrit imm = actBranch 15#4 disp := (actCrit_eq_illegal hcode hend).trans (actBranch_eq_illegal disp).symm
  exact congrArg (s.runWord t) hact

/-- Refutes O8 at CRIT with imm16 512, the least illegal code: the statement bounds no context number. In context 256 of `wideContext` the
word does raise the illegal-instruction exception, but CTX overflows STATE of its frame into CAUSE, which reads 0x02 where the statement asks
for 0x01. A core has 8 contexts or 4, so no such state is one of the hardware's; the statement lacks the premise that the current context is
one of the core's. -/
theorem not_critOpensAndClosesAWindow : ¬ Obligations.CritOpensAndClosesAWindow := by
  intro h
  obtain ⟨-, -, hillegal, -⟩ := h wideContext .badger 512#16
  obtain ⟨u, hexec, -, -, hcores⟩ := hillegal (by decide) (by decide) wideContext_takes wideContext_canEnter
  obtain ⟨-, -, hcause, -⟩ := hcores 144 (by decide)
  have hbranch : exec (.bCc .badger 15#4 0#20) wideContext = .next u :=
    (exec_crit_eq_bCc_of_illegal (by decide) (by decide) .badger 0#20 wideContext).symm.trans hexec
  rw [wideContext_illegalBranch_cause hbranch] at hcause
  exact absurd hcause (by decide)

end Sys2Proof.Proofs
end
